-- ==== Sys2Proof/Word.lean ====
section
/-! DEFINITION. The two word types of the block: the byte of every message and store, and the 32-bit
word of the transfer length and the residue (`spec/00_scope.md` section 6). -/

namespace Sys2Proof

/-- A byte: "A byte is 8 bits" (`spec/00_scope.md` section 6). -/
abbrev Byte := BitVec 8

/-- A 32-bit unsigned register value: `ctx.xferLen`, `ctx.residue` (R30, R31). -/
abbrev Word := BitVec 32

end Sys2Proof
end

