-- ==== Sys2Proof/Machine/Bytes.lean ====
section
/-! DEFINITION. Byte strings: reading a byte at an offset, and the byte orders of
`spec/00_scope.md` section 6 and `spec/20_memory.md` R64, R66. -/

namespace Sys2Proof

/-- `msg[i]`: the byte at offset `i`; 00 beyond the end, which no rule reads. -/
def byteAt (msg : List Byte) (i : Nat) : Byte := msg.getD i 0

/-- `le32(v)`: least significant byte first (R64). -/
def le32 (v : Word) : List Byte :=
  [v.extractLsb' 0 8, v.extractLsb' 8 8, v.extractLsb' 16 8, v.extractLsb' 24 8]

/-- `unle32` of four bytes, the least significant first (R92). -/
def unle32 (b0 b1 b2 b3 : Byte) : Word := b3 ++ b2 ++ b1 ++ b0

/-- `be32(v)`: most significant byte first (R66). -/
def be32 (v : Word) : List Byte :=
  [v.extractLsb' 24 8, v.extractLsb' 16 8, v.extractLsb' 8 8, v.extractLsb' 0 8]

/-- `unbe32` of four bytes, the most significant first (R100). -/
def unbe32 (b0 b1 b2 b3 : Byte) : Word := b0 ++ b1 ++ b2 ++ b3

/-- `be16(v)`: most significant byte first. -/
def be16 (v : BitVec 16) : List Byte := [v.extractLsb' 8 8, v.extractLsb' 0 8]

/-- `unbe16` of two bytes, the most significant first (R100). -/
def unbe16 (b0 b1 : Byte) : BitVec 16 := b0 ++ b1

/-- `be24(v)`: the 3-byte string, most significant byte first (R227). -/
def be24 (v : BitVec 24) : List Byte :=
  [v.extractLsb' 16 8, v.extractLsb' 8 8, v.extractLsb' 0 8]

end Sys2Proof
end

