-- ==== Sys2Proof/Syntax.lean ====
section
/-! DEFINITION. The instructions: one constructor of `Instr` for each of the 31 rows of
`spec/opcode_table.json`. The block's "instructions" are SCSI commands carried in a CBW, control
requests, and events with the worker's internal steps (R90). -/

namespace Sys2Proof

/-- The direction of a data phase seen from the host (R9, R28): `dirOut` moves data host→device,
`dirIn` moves data device→host. -/
inductive Dir where
  | dirOut
  | dirIn
  deriving DecidableEq, Repr, Inhabited

/-- The endpoint pair and its two pipes (R9): `rx` is host→device, `tx` is device→host. -/
inductive Endpoint where
  | rx
  | tx
  deriving DecidableEq, Repr, Inhabited

/-- The four opaque tag bytes of a CBW (R27, R65): no byte order, never interpreted. -/
structure Tag where
  t0 : Byte
  t1 : Byte
  t2 : Byte
  t3 : Byte
  deriving DecidableEq, Repr, Inhabited

/-- The operands every SCSI command takes from its CBW (R92). The other header bits are not read
(R103). -/
structure CbwHeader where
  /-- CBW bytes 4..7. -/
  tag : Tag
  /-- CBW bytes 8..11, little-endian. -/
  xferLen : Word
  /-- CBW byte 12 bit 7, decoded by `DIR_IN_POLARITY`. -/
  dir : Dir
  /-- CBW byte 13 bits 3..0. -/
  lun : BitVec 4
  deriving DecidableEq, Repr, Inhabited

/-- A control request as the forwarder hands it over, "already decoded" (R330): the three the block
gives a meaning to, and the four R336 only names. -/
inductive CtrlRequest where
  | clearHalt (ep : Endpoint)
  | getMaxLun
  | botReset
  | setFeatureHalt (ep : Endpoint)
  | getStatus
  | setInterface
  | getInterface
  deriving DecidableEq, Repr, Inhabited

/-- One constructor per row of `spec/opcode_table.json`. -/
inductive Instr where
  /-- TEST_UNIT_READY (R200). -/
  | testUnitReady (h : CbwHeader)
  /-- REQUEST_SENSE (R228). -/
  | requestSense (h : CbwHeader)
  /-- INQUIRY_VPD_SUPPORTED_PAGES (R221). -/
  | inquiryVpdSupportedPages (h : CbwHeader)
  /-- INQUIRY_VPD_SERIAL_NUMBER (R222). -/
  | inquiryVpdSerialNumber (h : CbwHeader)
  /-- INQUIRY_VPD_DEVICE_ID (R223). -/
  | inquiryVpdDeviceId (h : CbwHeader)
  /-- INQUIRY_VPD_BLOCK_LIMITS (R224). -/
  | inquiryVpdBlockLimits (h : CbwHeader)
  /-- INQUIRY_VPD_UNSUPPORTED (R225); `page` is `cb[2]`. -/
  | inquiryVpdUnsupported (h : CbwHeader) (page : Byte)
  /-- INQUIRY_STD (R220). -/
  | inquiryStd (h : CbwHeader)
  /-- MODE_SENSE6 (R229). -/
  | modeSense6 (h : CbwHeader)
  /-- START_STOP_UNIT (R203); `loej` is `cb[4]` bit 1 and `start` is `cb[4]` bit 0 (R101). -/
  | startStopUnit (h : CbwHeader) (loej start : Bool)
  /-- PREVENT_ALLOW (R202). -/
  | preventAllow (h : CbwHeader)
  /-- READ_FORMAT_CAPACITY (R227). -/
  | readFormatCapacity (h : CbwHeader)
  /-- READ_CAPACITY (R226). -/
  | readCapacity (h : CbwHeader)
  /-- READ10 (R250); `lba` is `cb[2..5]`, `count` is `cb[7..8]`, big-endian (R100). -/
  | read10 (h : CbwHeader) (lba : Word) (count : BitVec 16)
  /-- WRITE10 (R251); operands as `read10`. -/
  | write10 (h : CbwHeader) (lba : Word) (count : BitVec 16)
  /-- VERIFY (R201). -/
  | verify (h : CbwHeader)
  /-- UNKNOWN (R205); `opcode` is `cb[0]`. -/
  | unknown (h : CbwHeader) (opcode : Byte)
  /-- CLEAR_FEATURE_ENDPOINT_HALT (R331). -/
  | clearFeatureEndpointHalt (ep : Endpoint)
  /-- GET_MAX_LUN (R333). -/
  | getMaxLun
  /-- BOT_RESET (R334). -/
  | botReset
  /-- EV_CONFIG (R302). -/
  | evConfig
  /-- EV_BUS_RESET (R303). -/
  | evBusReset
  /-- EV_DISCONNECT (R304). -/
  | evDisconnect
  /-- EV_SUSPEND (R305). -/
  | evSuspend
  /-- EV_RX_READY (R150): an inbound buffer is filled, classified when consumed. -/
  | evRxReady
  /-- EV_RX_READY.DATA (R253): the same event consumed while a WRITE(10) awaits payload (R112). -/
  | evRxReadyData
  /-- EV_TX_DRAINED (R306). -/
  | evTxDrained
  /-- EV_CTRL (R330). -/
  | evCtrl (req : CtrlRequest)
  /-- EV_MEDIA (R309). -/
  | evMedia (l : Nat) (present : Bool)
  /-- DataStepTx, an internal step of the worker (R181). -/
  | dataStepTx
  /-- DispatchDone, an internal step of the worker (R185, R280). -/
  | dispatchDone
  deriving DecidableEq, Repr, Inhabited

/-- The four formats of R90. `csw` is "produced, never decoded"; `event` is a symbol. -/
inductive Format where
  | cbw
  | csw
  | ctrl
  | event
  deriving DecidableEq, Repr, Inhabited

/-- The format of each row of `spec/opcode_table.json`. -/
def Instr.format : Instr → Format
  | .testUnitReady _ => .cbw
  | .requestSense _ => .cbw
  | .inquiryVpdSupportedPages _ => .cbw
  | .inquiryVpdSerialNumber _ => .cbw
  | .inquiryVpdDeviceId _ => .cbw
  | .inquiryVpdBlockLimits _ => .cbw
  | .inquiryVpdUnsupported _ _ => .cbw
  | .inquiryStd _ => .cbw
  | .modeSense6 _ => .cbw
  | .startStopUnit _ _ _ => .cbw
  | .preventAllow _ => .cbw
  | .readFormatCapacity _ => .cbw
  | .readCapacity _ => .cbw
  | .read10 _ _ _ => .cbw
  | .write10 _ _ _ => .cbw
  | .verify _ => .cbw
  | .unknown _ _ => .cbw
  | .clearFeatureEndpointHalt _ => .ctrl
  | .getMaxLun => .ctrl
  | .botReset => .ctrl
  | .evConfig => .event
  | .evBusReset => .event
  | .evDisconnect => .event
  | .evSuspend => .event
  | .evRxReady => .event
  | .evRxReadyData => .event
  | .evTxDrained => .event
  | .evCtrl _ => .event
  | .evMedia _ _ => .event
  | .dataStepTx => .event
  | .dispatchDone => .event

end Sys2Proof
end

