-- ==== Sys2Proof/Config.lean ====
section
/-! DEFINITION. What an implementation fixes: the parameters of `spec/00_scope.md` R5 as one record
of plain data, their defaults, the sense enumeration that indexes `SENSE_TABLE`, the outcomes the
environment draws, and the free values (opaque constants). -/

namespace Sys2Proof

/-- The sense enumeration of R351, sixteen members in the source's order. -/
inductive Sense where
  | ok
  | crcError
  | invalidFieldInCbw
  | noMedia
  | writeFault
  | readError
  | addrNotFound
  | invalidOpCode
  | invalidLba
  | invalidParameter
  | cantEject
  | mediaChanged
  | deviceReset
  | writeProtected
  | initRequired
  | savePageNotSupported
  deriving DecidableEq, Repr, Inhabited

/-- A row of the Sense/Error Table: "a (sense-key, ASC, ASCQ) triple" (R352). -/
structure SenseTriple where
  key : Byte
  asc : Byte
  ascq : Byte
  deriving DecidableEq, Repr, Inhabited

/-- The parameters of one LUN: `BLOCK_SIZE[l]`, `BLOCK_COUNT[l]`, `MEDIA_PRESENT_INIT[l]` (R5), and the launch
contents of its store (R42, R45, U11). -/
structure LunConfig where
  blockSize : Nat
  blockCount : Nat
  mediaPresentInit : Bool
  /-- The contents of `store[l]` at power-on, address by address; what it does not list reads 00 (log 6). -/
  launch : List Host.Cell
  deriving DecidableEq, Repr, Inhabited

/-- The configuration record of R5. No rule writes it. -/
structure Config where
  /-- One entry per LUN; `NUM_LUNS` is its length. -/
  luns : List LunConfig
  /-- `BUF_CAP`. -/
  bufCap : Nat
  /-- `PIPE_DEPTH`: "not observable by any rule" (R5); no definition reads it. -/
  pipeDepth : Nat
  /-- `ACQ_TIMEOUT`: "no rule depends on its value" (R5, R364); no definition reads it. -/
  acqTimeout : Nat
  /-- `SUPERSPEED`. -/
  superspeed : Bool
  /-- `SENSE_TABLE`, one row per member of `Sense` in the order of R351. -/
  senseTable : Vector SenseTriple 16
  opcTur : Byte
  opcReqSense : Byte
  opcInquiry : Byte
  opcModeSense6 : Byte
  opcStartStop : Byte
  opcPrevent : Byte
  opcRdFmtCap : Byte
  opcRdCap : Byte
  opcRead10 : Byte
  opcWrite10 : Byte
  opcVerify : Byte
  vpdPageSupported : Byte
  vpdPageSerial : Byte
  vpdPageDevId : Byte
  vpdPageBlkLim : Byte
  /-- `INQ_STD`; `INQ_LEN` is its length. -/
  inqStd : List Byte
  /-- `VPD_DATA[VPD_PAGE_SUPPORTED]`; `VPD_LEN[p]` is the length of each page's data. -/
  vpdSupported : List Byte
  vpdSerial : List Byte
  vpdDevId : List Byte
  vpdBlkLim : List Byte
  /-- `MODE6_DATA`, "4 bytes" (R5, R229). -/
  mode6Data : Vector Byte 4
  rdCapLen : Nat
  rdFmtLen : Nat
  senseLen : Nat
  reqGetMaxLun : Byte
  reqBotReset : Byte
  /-- `DIR_IN_POLARITY`: the value of CBW flags bit 7 that means device→host (R92). -/
  dirInPolarity : Bool
  deriving DecidableEq, Repr

/-- `NUM_LUNS` (R5). -/
def Config.numLuns (c : Config) : Nat := c.luns.length

/-- `MODE6_LEN`: 4, the value R5 fixes for every configuration (R109, R229). -/
def Config.mode6Len (_ : Config) : Nat := 4

/-- The default rows of `SENSE_TABLE` (R352, from general knowledge). -/
def defaultSenseTable : Vector SenseTriple 16 :=
  #v[⟨0x00, 0x00, 0x00⟩, ⟨0x0B, 0x08, 0x03⟩, ⟨0x05, 0x24, 0x00⟩, ⟨0x02, 0x3A, 0x00⟩,
     ⟨0x03, 0x03, 0x00⟩, ⟨0x03, 0x11, 0x00⟩, ⟨0x03, 0x12, 0x00⟩, ⟨0x05, 0x20, 0x00⟩,
     ⟨0x05, 0x21, 0x00⟩, ⟨0x05, 0x26, 0x00⟩, ⟨0x05, 0x53, 0x02⟩, ⟨0x06, 0x28, 0x00⟩,
     ⟨0x06, 0x29, 0x00⟩, ⟨0x07, 0x27, 0x00⟩, ⟨0x02, 0x04, 0x02⟩, ⟨0x05, 0x39, 0x00⟩]

/-- The default standard inquiry block: 36 bytes in the conventional layout of R220. Its content is
OPEN in the spec (log 2). -/
def defaultInqStd : List Byte :=
  [0x00, 0x80, 0x00, 0x02, 0x1F, 0x00, 0x00, 0x00] ++ List.replicate 28 0x20

/-- The default configuration: `CFG0` of `spec/95_test_vectors.md` with the defaults of R5, R98, R99
and R352; what these leave OPEN is chosen in log 2. -/
def Config.default : Config where
  luns := [⟨512, 2048, true, []⟩]
  bufCap := 512
  pipeDepth := 4
  acqTimeout := 1
  superspeed := false
  senseTable := defaultSenseTable
  opcTur := 0x00
  opcReqSense := 0x03
  opcInquiry := 0x12
  opcModeSense6 := 0x1A
  opcStartStop := 0x1B
  opcPrevent := 0x1E
  opcRdFmtCap := 0x23
  opcRdCap := 0x25
  opcRead10 := 0x28
  opcWrite10 := 0x2A
  opcVerify := 0x2F
  vpdPageSupported := 0x00
  vpdPageSerial := 0x80
  vpdPageDevId := 0x83
  vpdPageBlkLim := 0xB0
  inqStd := defaultInqStd
  vpdSupported := [0x00, 0x00, 0x00, 0x04, 0x00, 0x80, 0x83, 0xB0]
  vpdSerial := [0x00, 0x80, 0x00, 0x08] ++ List.replicate 8 0x30
  vpdDevId := [0x00, 0x83, 0x00, 0x0C, 0x02, 0x01, 0x00, 0x08] ++ List.replicate 8 0x20
  vpdBlkLim := [0x00, 0xB0, 0x00, 0x3C] ++ List.replicate 60 0x00
  mode6Data := #v[0x03, 0x00, 0x00, 0x00]
  rdCapLen := 8
  rdFmtLen := 12
  senseLen := 18
  reqGetMaxLun := 0xFE
  reqBotReset := 0xFF
  dirInPolarity := true

/-- The outcome of `PipeAcquire` the environment draws (R131). -/
inductive AcquireDraw where
  | buffer
  | timeout
  | fail
  deriving DecidableEq, Repr, Inhabited

/-- The outcome of `PipeCommit` the environment draws (R132). -/
inductive CommitDraw where
  | ok
  | fail
  deriving DecidableEq, Repr, Inhabited

/-- Which enabled step the worker takes when an internal step and a queued event are both enabled:
"the choice is not fixed by the source" (R301). -/
inductive WorkerPick where
  | event
  | internal
  deriving DecidableEq, Repr, Inhabited

/-- FREE VALUE (log 4): the outcome of a `PipeAcquire` beyond those State lists (R131, U13). -/
opaque Config.freeAcquire : Nat → AcquireDraw

/-- FREE VALUE (log 4): the outcome of a `PipeCommit` beyond those State lists (R132, U13). -/
opaque Config.freeCommit : Nat → CommitDraw

/-- FREE VALUE (log 3): the worker's choice where the schedule lists none (R301, U9). -/
opaque Config.freePick : Nat → WorkerPick

/-- FREE VALUE (log 5): the tag of a phase-error CSW, "four drawn bytes" (R154, U2). -/
opaque Config.freeTag : Nat → Tag

/-- FREE VALUE (log 11): byte by byte, a response whose configured length is not the length of the layout
the spec gives; `RDCAP_LEN`, `RDFMT_LEN` and `SENSE_LEN` are OPEN (R5). -/
opaque Config.freeResponseByte : Nat → Nat → Byte

end Sys2Proof
end

