-- ==== Sys2Proof/Machine/Store.lean ====
section
/-! DEFINITION. The backing store of one LUN (R42, R61): its canonical form, reads and writes, and its
contents at launch. -/

namespace Sys2Proof.Machine

/-- The backing store of one LUN as cells in one canonical form: addresses strictly rising, no entry
equal to what an unlisted address reads as (R42, R61). -/
abbrev Memory := List Host.Cell

/-- What an unlisted store byte reads as: 00 (DESIGN CHOICE, log 6). -/
abbrev Memory.unlisted : Byte := 0x00

/-- The canonical form of a store. -/
abbrev Memory.wf (m : Memory) : Prop :=
  m.Pairwise (fun x y => x.1 < y.1) ∧ ∀ x ∈ m, x.2 ≠ Memory.unlisted

/-- One byte of a store. -/
def Memory.byte : Memory → Nat → Byte
  | [], _ => Memory.unlisted
  | (k, v) :: m, a => if k = a then v else Memory.byte m a

/-- Writes one byte, keeping the canonical form. -/
def Memory.put : Memory → Nat → Byte → Memory
  | [], a, b => if b = Memory.unlisted then [] else [(a, b)]
  | (k, v) :: m, a, b =>
    if a < k then if b = Memory.unlisted then (k, v) :: m else (a, b) :: (k, v) :: m
    else if a = k then if b = Memory.unlisted then m else (a, b) :: m
    else (k, v) :: Memory.put m a b

/-- The `n` bytes from address `a` on. -/
def Memory.readRange (m : Memory) (a : Nat) : Nat → List Byte
  | 0 => []
  | n + 1 => Memory.byte m a :: Memory.readRange m (a + 1) n

/-- Writes a byte string from address `a` on, in ascending address order (R68). -/
def Memory.writeRange (m : Memory) (a : Nat) : List Byte → Memory
  | [] => m
  | b :: bs => Memory.writeRange (Memory.put m a b) (a + 1) bs

/-- A store of `size` bytes at launch (R42, R45): the launch cells that lie inside it, the first cell of an
address counting (log 6). -/
def Memory.launch (size : Nat) : List Host.Cell → Memory
  | [] => []
  | (a, b) :: cells =>
    if a < size then (Memory.launch size cells).put a b else Memory.launch size cells

end Sys2Proof.Machine
end

