-- ==== Sys2Proof/Machine/State.lean ====
section
/-! DEFINITION. State as plain data: everything `spec/10_state.md` gives the machine, the outputs the
block emits, and the environment of the one deterministic step; faults, refusals, and the state after
power-on reset (R45). -/

namespace Sys2Proof.Machine

/-- One pipe buffer: the byte string of its `occupied` bytes (R43). -/
abbrev Buffer := List Byte

/-- The transport state register `ctx.st` (R22). -/
inductive TransportState where
  | inactive
  | cbwWait
  | dispatched
  | status
  deriving DecidableEq, Repr, Inhabited

/-- The CSW status codes (R32, R95): 0 success, 1 failed, 2 phase error. -/
inductive CswStatus where
  | ok
  | failed
  | phaseError
  deriving DecidableEq, Repr, Inhabited

/-- The data-phase descriptor `ctx.xfer` (R23), one constructor per `kind`; when the kind is `none`
"the other fields hold no value". -/
inductive Xfer where
  | none
  | resp (bytes : List Byte) (pos remaining : Nat)
  | rd (pos remaining : Nat)
  | wr (pos remaining : Nat)
  deriving DecidableEq, Repr, Inhabited

/-- The transport context (R20, R21). -/
structure Ctx where
  st : TransportState
  phaseError : Bool
  busy : Bool
  wedged : Bool
  /-- The last accepted CBW, 31 bytes (R26). -/
  cbw : List Byte
  tag : Tag
  dir : Dir
  lunSel : BitVec 4
  xferLen : Word
  residue : Word
  status : CswStatus
  xfer : Xfer
  deriving DecidableEq, Repr

/-- One LUN record (R35) with its backing store `store[l]` (R42; one per LUN, D30). -/
structure Lun where
  blockSize : Nat
  blockCount : Nat
  mediaPresent : Bool
  stopped : Bool
  lastSense : Sense
  store : Memory
  deriving DecidableEq, Repr

/-- The event alphabet of the queue (R106). -/
inductive Event where
  | config
  | busReset
  | disconnect
  | suspend
  | rxReady
  | txDrained
  | ctrl (req : CtrlRequest)
  | media (l : Nat) (present : Bool)
  deriving DecidableEq, Repr, Inhabited

/-- The observable actions (`spec/00_scope.md` section 6; R365). -/
inductive Action where
  | stall (ep : Endpoint)
  | unstall (ep : Endpoint)
  | seqReset (ep : Endpoint)
  | ctrlAck
  | ctrlReply (bytes : List Byte)
  | lpmAllow (allowed : Bool)
  | pipeCommit (bytes : Buffer)
  | pipeDiscard
  | pipeReset (ep : Endpoint)
  | memWrite (l addr : Nat) (bytes : List Byte)
  deriving DecidableEq, Repr, Inhabited

/-- Whose turn the next step is (R301, R357): the worker's, with its pick when an internal step and an
event are both enabled, or one of the environment's steps (R141, R142, R355). -/
inductive Turn where
  | worker (pick : WorkerPick)
  | rxFill (bytes : Buffer)
  | txDrain
  | post (e : Event)
  deriving DecidableEq, Repr, Inhabited

/-- The environment as plain data (the MODEL's own fields; logs 3, 4, 5): its coming turns, its coming
draws, and the counter the free values are applied to beyond those. -/
structure Env where
  schedule : List Turn
  acquires : List AcquireDraw
  commits : List CommitDraw
  draws : Nat
  deriving DecidableEq, Repr

/-- The whole state of the block. -/
structure State where
  /-- The parameters of R5; no rule writes them. -/
  cfg : Config
  ctx : Ctx
  haltRx : Bool
  haltTx : Bool
  luns : List Lun
  evq : List Event
  rxq : List Buffer
  txq : List Buffer
  /-- The buffers delivered to the host, oldest first: "the host's received stream" (R142). -/
  hostRx : List Buffer
  /-- The observable output trace, oldest first. -/
  trace : List Action
  env : Env
  deriving DecidableEq, Repr

/-- What stops the machine. -/
inductive Fault where
  /-- A backing-store access outside `store[l]` or to a LUN that does not exist. Raised by a data step
  (DataStepTx of a READ(10), the payload step of a WRITE(10)); no rule makes such an access (R61), so
  only states no run reaches raise it. Safe: the machine stops where the hardware has no behaviour. -/
  | storeOutOfRange
  deriving DecidableEq, Repr, Inhabited

/-- What the model gives no meaning. -/
inductive Refusal where
  /-- An instruction with no meaning yet; raised only by arms of `exec`. Safe. -/
  | notModelled (mnemonic : String)
  /-- An accepted CBW with `cbLength` 0 or above 16 (R104, U1): "a model refuses a run in which such a
  CBW is accepted". Raised by EV_RX_READY. Safe. -/
  | cbLengthOutOfRange
  /-- More WRITE(10) payload than remains (R253, U4). Raised by EV_RX_READY and EV_RX_READY.DATA. Safe. -/
  | payloadOverrun
  /-- SET_FEATURE, GET_STATUS, SET_INTERFACE or GET_INTERFACE (R336, U6). Raised by EV_CTRL. Safe. -/
  | controlRequestWithoutRule
  /-- `EV_MEDIA` naming a LUN that does not exist (R309, U10). Raised by EV_MEDIA. Safe. -/
  | mediaLunOutOfRange
  /-- A configuration outside R6 (D44, U12). Raised by `step`. Safe. -/
  | configOutOfRange
  deriving DecidableEq, Repr

/-- The LUN record of a LUN at application start, its store holding its launch contents (R35, R42, R45). -/
def Lun.powerOn (c : LunConfig) : Lun where
  blockSize := c.blockSize
  blockCount := c.blockCount
  mediaPresent := c.mediaPresentInit
  stopped := false
  lastSense := .deviceReset
  store := Memory.launch (c.blockSize * c.blockCount) c.launch

/-- The context at application start (R45). The CBW registers hold the values log 1 names. -/
def Ctx.powerOn : Ctx where
  st := .inactive
  phaseError := false
  busy := false
  wedged := false
  cbw := List.replicate 31 0x00
  tag := ⟨0x00, 0x00, 0x00, 0x00⟩
  dir := .dirOut
  lunSel := 0
  xferLen := 0
  residue := 0
  status := .ok
  xfer := .none

/-- The state after power-on reset under a configuration (R45, R401). -/
def State.powerOn (c : Config) : State where
  cfg := c
  ctx := Ctx.powerOn
  haltRx := false
  haltTx := false
  luns := c.luns.map Lun.powerOn
  evq := []
  rxq := []
  txq := []
  hostRx := []
  trace := []
  env := ⟨[], [], [], 0⟩

/-- The machine right after reset, in the default configuration (R45; log 2). -/
def State.reset : State := State.powerOn Config.default

end Sys2Proof.Machine
end

