-- ==== Sys2Proof/Machine/Flags.lean ====
section
/-! DEFINITION. The status bits of the block: the output trace the bits are announced on, the halt
bits, the busy bit with its link-power output, and the conditions rules test. The block has no
arithmetic flags. -/

namespace Sys2Proof.Machine

/-- `emit A`: appends an action to the observable output trace. -/
def State.emit (s : State) (a : Action) : State := { s with trace := s.trace ++ [a] }

/-- `halt[ep]` (R33). -/
def State.halted (s : State) : Endpoint → Bool
  | .rx => s.haltRx
  | .tx => s.haltTx

/-- Writes `halt[ep]`. -/
def State.setHalt (s : State) (ep : Endpoint) (b : Bool) : State :=
  match ep with
  | .rx => { s with haltRx := b }
  | .tx => { s with haltTx := b }

/-- `emit Stall(ep); halt[ep] <- true` (R33). -/
def stall (ep : Endpoint) (s : State) : State := (s.emit (.stall ep)).setHalt ep true

/-- `emit Unstall(ep); halt[ep] <- false` (R331). -/
def unstall (ep : Endpoint) (s : State) : State := (s.emit (.unstall ep)).setHalt ep false

/-- Writes `ctx.st`. -/
def State.setSt (s : State) (st : TransportState) : State := { s with ctx := { s.ctx with st := st } }

/-- `lpmAllowed = not ctx.busy`, a derived output (R34). -/
def State.lpmAllowed (s : State) : Bool := !s.ctx.busy

/-- `ctx.busy <- b; emit LpmAllow(not b)` (R34, R152, R282). -/
def setBusy (b : Bool) (s : State) : State :=
  ({ s with ctx := { s.ctx with busy := b } } : State).emit (.lpmAllow (!b))

/-- `if ctx.busy: ctx.busy <- false; emit LpmAllow(true)`, the line the reset rules share (R302 to
R304, R334). -/
def clearBusy (s : State) : State := if s.ctx.busy then setBusy false s else s

/-- `ctx.wedged <- true`: the CSW could not be queued (R48, R285). -/
def wedge (s : State) : State := { s with ctx := { s.ctx with wedged := true } }

/-- Whether the data phase takes host payload: `ctx.xfer.kind = WR`. -/
def Xfer.isWrite : Xfer → Bool
  | .none => false
  | .resp _ _ _ => false
  | .rd _ _ => false
  | .wr _ _ => true

/-- `armed(RX)` (R140). -/
def State.armed (s : State) : Bool :=
  s.rxq.isEmpty && !s.ctx.wedged &&
    ((s.ctx.st = .cbwWait && !s.ctx.phaseError) || (s.ctx.st = .dispatched && s.ctx.xfer.isWrite))

/-- The `DATA` sub-state of `DISPATCHED` (R23). -/
def State.inDataPhase (s : State) : Bool := s.ctx.st = .dispatched && s.ctx.xfer ≠ .none

end Sys2Proof.Machine
end

