-- ==== Sys2Proof/Machine/Ops.lean ====
section
/-! DEFINITION. The named operations the meanings share: the backing store, the pipe primitives and
their draws, the command failure (this block's exception entry, R358) with the cancellation the
recovery rules share (its return, R360), the CSW, and the phase-error entry (R359). -/

namespace Sys2Proof.Machine

/-! ### The backing store (R61) -/

/-- The size of `store[l]` in bytes: `BLOCK_SIZE[l] * BLOCK_COUNT[l]` (R42). -/
def Lun.capacity (u : Lun) : Nat := u.blockSize * u.blockCount

/-- `MemRead(l, addr, n)` (R61); none outside the store. -/
def memRead (l addr n : Nat) (s : State) : Option (List Byte) :=
  match s.luns[l]? with
  | none => none
  | some u => if addr + n ≤ u.capacity then some (u.store.readRange addr n) else none

/-- Changes LUN record `l`, if there is one. -/
def State.modifyLun (s : State) (l : Nat) (f : Lun → Lun) : State :=
  { s with luns := s.luns.modify l f }

/-- `MemWrite(l, addr, n, v)` (R61), observable; none outside the store. -/
def memWrite (l addr : Nat) (v : List Byte) (s : State) : Option State :=
  match s.luns[l]? with
  | none => none
  | some u =>
    if addr + v.length ≤ u.capacity then
      some ((s.modifyLun l fun u => { u with store := u.store.writeRange addr v }).emit
        (.memWrite l addr v))
    else none

/-! ### The pipe primitives (R131 to R135) -/

/-- The outcome of the next `PipeAcquire`: the one State lists, else a free value (R131, U13). -/
def State.nextAcquire (s : State) : AcquireDraw :=
  match s.env.acquires with
  | d :: _ => d
  | [] => Config.freeAcquire s.env.draws

/-- The state after the outcome of a `PipeAcquire` has been drawn. -/
def drawnAcquire (s : State) : State :=
  { s with env := { s.env with acquires := s.env.acquires.tail, draws := s.env.draws + 1 } }

/-- The outcome of the next `PipeCommit`: the one State lists, else a free value (R132, U13). -/
def State.nextCommit (s : State) : CommitDraw :=
  match s.env.commits with
  | d :: _ => d
  | [] => Config.freeCommit s.env.draws

/-- The state after the outcome of a `PipeCommit` has been drawn. -/
def drawnCommit (s : State) : State :=
  { s with env := { s.env with commits := s.env.commits.tail, draws := s.env.draws + 1 } }

/-- `PipeAcquire(TX)` (R131): whether it returned an empty buffer; no effect on `TX.q`. -/
def pipeAcquireTx (s : State) : Bool × State := (s.nextAcquire = .buffer, drawnAcquire s)

/-- `PipeAcquire(RX)` (R131): the head of `RX.q` when the draw is `Buffer`; on `TIMEOUT` and `FAIL` that
head "is removed and lost". -/
def pipeAcquireRx (s : State) : Option Buffer × State :=
  (if s.nextAcquire = .buffer then s.rxq.head? else none,
   { drawnAcquire s with rxq := s.rxq.tail })

/-- `PipeCommit(TX, b, bytes)` (R132): on `OK` the buffer is appended to `TX.q`; on `FAIL` no effect. -/
def pipeCommit (bytes : Buffer) (s : State) : Bool × State :=
  match s.nextCommit with
  | .ok => (true, ({ drawnCommit s with txq := s.txq ++ [bytes] } : State).emit (.pipeCommit bytes))
  | .fail => (false, drawnCommit s)

/-- `PipeDiscard(RX, b)` (R133): the buffer returns to the free slots; no data moves. -/
def pipeDiscard (s : State) : State := s.emit .pipeDiscard

/-- `PipeReset(P)` (R135): every buffer in flight is dropped. -/
def pipeReset (ep : Endpoint) (s : State) : State :=
  match ep with
  | .rx => ({ s with rxq := [] } : State).emit (.pipeReset .rx)
  | .tx => ({ s with txq := [] } : State).emit (.pipeReset .tx)

/-! ### Exception entry: the failure of a command (R177, R183, R358) -/

/-- `lun[l].lastSense <- x`, nowhere when the LUN does not exist (R177). -/
def recordSense (l : Nat) (x : Sense) (s : State) : State :=
  s.modifyLun l fun u => { u with lastSense := x }

/-- The failure of a command, taken the same way whatever raises it (R358): status 1, the sense index in
the selected LUN's record when it exists, no data phase, the residue as it is. -/
def commandFail (x : Sense) (s : State) : State :=
  recordSense s.ctx.lunSel.toNat x
    { s with ctx := { s.ctx with status := .failed, xfer := .none } }

/-- `raise XferFail` (R183). -/
def xferFail (s : State) : State := commandFail .crcError s

/-! ### The return from it: cancellation (R184, R360) -/

/-- `PipeReset(RX); PipeReset(TX)`: the flush of the reset rules. -/
def flushPipes (s : State) : State := pipeReset .tx (pipeReset .rx s)

/-- The cancellation the reset rules share (R184): busy cleared with its link-power action, no data phase,
residue 0, not stuck. -/
def cancelCommand (s : State) : State :=
  let s := clearBusy s
  { s with ctx := { s.ctx with xfer := .none, residue := 0, wedged := false } }

/-! ### The CSW and the phase error (R154, R281, R285, R359) -/

/-- The CSW status byte (R95). -/
def CswStatus.toByte : CswStatus → Byte
  | .ok => 0x00
  | .failed => 0x01
  | .phaseError => 0x02

/-- The CSW signature, the characters `U` `S` `B` `S` (R94). -/
def cswSignature : List Byte := [0x55, 0x53, 0x42, 0x53]

/-- The 13 bytes of a CSW (R94, R281). -/
def cswBytes (tag : Tag) (residue : Word) (status : CswStatus) : List Byte :=
  cswSignature ++ [tag.t0, tag.t1, tag.t2, tag.t3] ++ le32 residue ++ [status.toByte]

/-- `PipeAcquire(TX)` then `PipeCommit` of one message: whether both succeeded (R154, R280). -/
def queueTx (bytes : Buffer) (s : State) : Bool × State :=
  match pipeAcquireTx s with
  | (false, s) => (false, s)
  | (true, s) => pipeCommit bytes s

/-- The state after four tag bytes have been drawn (R154). -/
def drawnTag (s : State) : State := { s with env := { s.env with draws := s.env.draws + 1 } }

/-- `raise PhaseError` (R154, R359): the flag and status 2, then the CSW with a drawn tag and residue 0;
stuck if it cannot be queued. No sense index is recorded. -/
def raisePhaseError (s : State) : State :=
  let t := Config.freeTag s.env.draws
  let s := drawnTag s
  let s := { s with ctx := { s.ctx with phaseError := true, status := .phaseError } }
  match queueTx (cswBytes t 0 .phaseError) s with
  | (false, s) => wedge s
  | (true, s) => s.setSt .status

/-- Both stalls of a phase error (R302, R306). -/
def stallBoth (s : State) : State := stall .tx (stall .rx s)

end Sys2Proof.Machine
end

