-- ==== Sys2Proof/Machine/Operands.lean ====
section
/-! DEFINITION. What a SCSI command is checked against and answers: the per-opcode policy (R109), the
common part of the dispatcher (R170 to R178), and the response blocks of
`spec/44_scsi_fixed_response.md`. -/

namespace Sys2Proof.Machine

/-! ### Dispatch step 1 (R171) -/

/-- Step 1: tag, transfer length, direction and LUN from the CBW; residue is the transfer length. -/
def loadCommand (h : CbwHeader) (s : State) : State :=
  { s with ctx := { s.ctx with
      tag := h.tag, xferLen := h.xferLen, dir := h.dir, lunSel := h.lun,
      residue := h.xferLen, status := .ok, xfer := .none } }

/-! ### The per-opcode policy (R109) -/

/-- The data phase a command requires: `expDir` and `expLen`. -/
structure DataPhase where
  dir : Dir
  len : Nat
  deriving DecidableEq, Repr

/-- One row of the table of R109. -/
structure Policy where
  /-- `data`, with `expDir` and `expLen` when it is yes. -/
  dataPhase : Option DataPhase
  /-- Whether step 4 tests `mediaPresent`. -/
  media : Bool
  /-- Whether step 4 tests `stopped`. -/
  stop : Bool
  deriving DecidableEq, Repr

/-- The rows TEST_UNIT_READY, VERIFY and PREVENT_ALLOW of R109. -/
def statusOnlyPolicy : Policy := ⟨none, true, true⟩

/-- The row START_STOP_UNIT of R109: exempt from the `stopped` test only (C1). -/
def startStopPolicy : Policy := ⟨none, true, false⟩

/-- The rows INQUIRY and REQUEST_SENSE of R109: not LUN-state-sensitive. -/
def alwaysReadyPolicy (len : Nat) : Policy := ⟨some ⟨.dirIn, len⟩, false, false⟩

/-- The rows READ_CAPACITY, READ_FORMAT_CAPACITY and MODE_SENSE6 of R109. -/
def mediaResponsePolicy (len : Nat) : Policy := ⟨some ⟨.dirIn, len⟩, true, true⟩

/-- The rows READ10 and WRITE10 of R109: `expLen = count * lun[l].blockSize`, an unbounded integer. -/
def transferPolicy (dir : Dir) (count : BitVec 16) (u : Lun) : Policy :=
  ⟨some ⟨dir, count.toNat * u.blockSize⟩, true, true⟩

/-! ### Dispatch steps 2 to 5 -/

/-- Step 3 (R174, R175): the declared length and direction against the policy. -/
def lengthMatches (p : Policy) (ctx : Ctx) : Bool :=
  match p.dataPhase with
  | none => ctx.xferLen = 0
  | some d => ctx.xferLen ≠ 0 && ctx.dir = d.dir && ctx.xferLen.toNat = d.len

/-- Step 4 (R176): the medium is absent or the unit stopped, for a command that minds. -/
def notReady (p : Policy) (u : Lun) : Bool :=
  (p.media && !u.mediaPresent) || (p.stop && u.stopped)

/-- The sense step 4 leaves (R176): a pending `MEDIA_CHANGED` is not overwritten. -/
def notReadySense (u : Lun) : Sense :=
  if u.lastSense = .mediaChanged then .mediaChanged else .noMedia

/-- Steps 1 to 5 of the dispatcher for a recognised command (R170): the first test that fails ends it,
otherwise the handler runs on the selected LUN. -/
def runCommand (h : CbwHeader) (policy : Lun → Policy) (handler : Lun → State → State)
    (s : State) : State :=
  let s := loadCommand h s
  match s.luns[s.ctx.lunSel.toNat]? with
  | none => commandFail .invalidFieldInCbw s
  | some u =>
    if lengthMatches (policy u) s.ctx then
      if notReady (policy u) u then commandFail (notReadySense u) s else handler u s
    else commandFail .invalidParameter s

/-- A command that fails at recognition (R173), after the LUN test of step 2 (R172). -/
def rejectCommand (h : CbwHeader) (x : Sense) (s : State) : State :=
  let s := loadCommand h s
  match s.luns[s.ctx.lunSel.toNat]? with
  | none => commandFail .invalidFieldInCbw s
  | some _ => commandFail x s

/-! ### Handlers' shared parts -/

/-- Writes `ctx.xfer`. -/
def State.setXfer (s : State) (x : Xfer) : State := { s with ctx := { s.ctx with xfer := x } }

/-- `SetupResp(bytes)` (R180). -/
def setupResp (bytes : List Byte) (s : State) : State := s.setXfer (.resp bytes 0 bytes.length)

/-- `RangeCheck(lba, count)` (R252): whether the range is inside the store (R62). -/
def rangeOk (lba : Word) (count : BitVec 16) (u : Lun) : Bool :=
  lba.toNat + count.toNat ≤ u.blockCount

/-- One buffer of `n` bytes has moved (R181, R253): residue, position and remaining count; the data
phase ends when nothing remains. -/
def Xfer.advance (n : Nat) : Xfer → Xfer
  | .none => .none
  | .resp bytes pos remaining =>
    if remaining - n = 0 then .none else .resp bytes (pos + n) (remaining - n)
  | .rd pos remaining => if remaining - n = 0 then .none else .rd (pos + n) (remaining - n)
  | .wr pos remaining => if remaining - n = 0 then .none else .wr (pos + n) (remaining - n)

/-- The bookkeeping of R181 and R253 after a buffer of `n` bytes. -/
def advanceXfer (n : Nat) (s : State) : State :=
  { s with ctx := { s.ctx with
      residue := s.ctx.residue - BitVec.ofNat 32 n, xfer := s.ctx.xfer.advance n } }

/-! ### Response blocks -/

/-- The position of a sense index in `SENSE_TABLE`: 0..15 in the order of R351. -/
def senseIndex : Sense → Fin 16
  | .ok => 0
  | .crcError => 1
  | .invalidFieldInCbw => 2
  | .noMedia => 3
  | .writeFault => 4
  | .readError => 5
  | .addrNotFound => 6
  | .invalidOpCode => 7
  | .invalidLba => 8
  | .invalidParameter => 9
  | .cantEject => 10
  | .mediaChanged => 11
  | .deviceReset => 12
  | .writeProtected => 13
  | .initRequired => 14
  | .savePageNotSupported => 15

/-- `SENSE_TABLE[s]` (R39, R352). -/
def senseTriple (c : Config) (x : Sense) : SenseTriple := c.senseTable.get (senseIndex x)

/-- The 18 bytes of REQUEST SENSE data (R228). -/
def senseData (t : SenseTriple) : List Byte :=
  [0x70, 0x00, t.key, 0x00, 0x00, 0x00, 0x00, 0x0A, 0x00, 0x00, 0x00, 0x00, t.asc, t.ascq,
   0x00, 0x00, 0x00, 0x00]

/-- The 8 bytes of READ CAPACITY data (R226): last block address, then block length. -/
def capacityData (u : Lun) : List Byte :=
  be32 (BitVec.ofNat 32 (u.blockCount - 1)) ++ be32 (BitVec.ofNat 32 u.blockSize)

/-- The 12 bytes of READ FORMAT CAPACITY data (R227). -/
def formatCapacityData (u : Lun) : List Byte :=
  [0x00, 0x00, 0x00, 0x08] ++ be32 (BitVec.ofNat 32 u.blockCount) ++ [0x02] ++
    be24 (BitVec.ofNat 24 u.blockSize)

/-- The response of a command whose configured length is `n`: its layout where that has `n` bytes; for
another length the spec states no bytes, and the response is `n` free bytes (R180, log 11). -/
def responseOf (n : Nat) (layout : List Byte) (s : State) : List Byte :=
  if layout.length = n then layout else (List.range n).map (Config.freeResponseByte s.env.draws)

/-! ### The configuration (R6) -/

/-- The ranges R6 requires of the geometry of one LUN. -/
def lunConfigInRange (l : LunConfig) : Bool :=
  1 ≤ l.blockSize && l.blockSize < 2 ^ 24 && 1 ≤ l.blockCount && l.blockCount < 2 ^ 32

/-- The constraints of R6. -/
def configInRange (c : Config) : Bool :=
  1 ≤ c.numLuns && c.numLuns ≤ 16 && 31 ≤ c.bufCap && c.luns.all lunConfigInRange

end Sys2Proof.Machine
end

