-- ==== Sys2Proof/Machine/StatusOnly.lean ====
section
/-! DEFINITION. The status-only commands and the unknown opcode (`spec/43_scsi_status_only.md`). -/

namespace Sys2Proof.Machine

/-- What a meaning answers. -/
abbrev Result := Host.Outcome State Fault Refusal

/-- TEST_UNIT_READY (R200): "Handler: nothing". -/
def execTestUnitReady (h : CbwHeader) (s : State) : Result :=
  .next (runCommand h (fun _ => statusOnlyPolicy) (fun _ s => s) s)

/-- VERIFY (R201): "Handler: nothing; the backing store is not read and nothing is compared". -/
def execVerify (h : CbwHeader) (s : State) : Result :=
  .next (runCommand h (fun _ => statusOnlyPolicy) (fun _ s => s) s)

/-- PREVENT_ALLOW (R202): "Handler: nothing". -/
def execPreventAllow (h : CbwHeader) (s : State) : Result :=
  .next (runCommand h (fun _ => statusOnlyPolicy) (fun _ s => s) s)

/-- The new value of `stopped` (R203): (1,0) stops, (0,1) starts, else `start = 0` (D14). -/
def stoppedAfter (loej start : Bool) : Bool :=
  match loej, start with
  | true, false => true
  | false, true => false
  | false, false => true
  | true, true => false

/-- START_STOP_UNIT (R203). -/
def execStartStopUnit (h : CbwHeader) (loej start : Bool) (s : State) : Result :=
  .next (runCommand h (fun _ => startStopPolicy)
    (fun _ s => s.modifyLun s.ctx.lunSel.toNat fun u => { u with stopped := stoppedAfter loej start }) s)

/-- UNKNOWN (R205): `raise Fail(INVALID_OP_CODE)` at recognition, whatever opcode byte it is. -/
def execUnknown (h : CbwHeader) (_opcode : Byte) (s : State) : Result :=
  .next (rejectCommand h .invalidOpCode s)

end Sys2Proof.Machine
end

