-- ==== Sys2Proof/Machine/BusEvents.lean ====
section
/-! DEFINITION. Bus events, the drained notification and media change (`spec/47_bus_events.md`). -/

namespace Sys2Proof.Machine

/-- "clear `stopped` on all LUNs" (R302). -/
def startAllUnits (s : State) : State :=
  { s with luns := s.luns.map fun u => { u with stopped := false } }

/-- EV_CONFIG (R302), in any state. -/
def execEvConfig (s : State) : Result :=
  let s := cancelCommand (startAllUnits (flushPipes s))
  let s := if s.ctx.phaseError then stallBoth s else s
  .next (s.setSt .cbwWait)

/-- The flush of RESET/DISCONNECT (R303): both pipes, the phase error, both halts, the command; then
`INACTIVE`. -/
def busReset (s : State) : State :=
  let s := flushPipes s
  let s := { s with ctx := { s.ctx with phaseError := false }, haltRx := false, haltTx := false }
  (cancelCommand s).setSt .inactive

/-- EV_BUS_RESET (R303), in any state. -/
def execEvBusReset (s : State) : Result := .next (busReset s)

/-- EV_DISCONNECT (R304): "exactly the effect of rule R303". -/
def execEvDisconnect (s : State) : Result := .next (busReset s)

/-- EV_SUSPEND (R305): "the event is consumed and no state changes". -/
def execEvSuspend (s : State) : Result := .next s

/-- EV_TX_DRAINED (R306). -/
def execEvTxDrained (s : State) : Result :=
  if s.ctx.st = .status ∧ s.ctx.wedged = false then
    .next ((if s.ctx.phaseError then stallBoth s else s).setSt .cbwWait)
  else .next s

/-- EV_MEDIA (R309), in any state; a LUN that does not exist is refused (U10). -/
def execEvMedia (l : Nat) (present : Bool) (s : State) : Result :=
  if l < s.luns.length then
    .next (s.modifyLun l fun u => { u with mediaPresent := present, lastSense := .mediaChanged })
  else .refused .mediaLunOutOfRange

end Sys2Proof.Machine
end

