-- ==== Sys2Proof/Machine/Control.lean ====
section
/-! DEFINITION. Control requests and stall recovery (`spec/48_control_requests.md`). -/

namespace Sys2Proof.Machine

/-- CLEAR_FEATURE(ENDPOINT_HALT, ep) (R331), in any state: the halt is kept in a phase error. -/
def execClearFeatureEndpointHalt (ep : Endpoint) (s : State) : Result :=
  let s := if s.ctx.phaseError then s else unstall ep s
  let s := if s.cfg.superspeed then s.emit (.seqReset ep) else s
  .next (s.emit .ctrlAck)

/-- `NUM_LUNS` as the machine sees it: the number of LUN records (R35). -/
def State.numLuns (s : State) : Nat := s.luns.length

/-- GET_MAX_LUN (R333), in any state. -/
def execGetMaxLun (s : State) : Result :=
  .next (s.emit (.ctrlReply [BitVec.ofNat 8 (s.numLuns - 1)]))

/-- BOT_RESET (R334): acknowledged only in `INACTIVE` (C4). -/
def execBotReset (s : State) : Result :=
  if s.ctx.st = .inactive then .next (s.emit .ctrlAck)
  else
    let s := flushPipes s
    let s := { s with ctx := { s.ctx with phaseError := false } }
    .next (((cancelCommand s).setSt .cbwWait).emit .ctrlAck)

/-- EV_CTRL (R330): the forwarded request's rule; the four requests of R336 have none. -/
def execEvCtrl (req : CtrlRequest) (s : State) : Result :=
  match req with
  | .clearHalt ep => execClearFeatureEndpointHalt ep s
  | .getMaxLun => execGetMaxLun s
  | .botReset => execBotReset s
  | .setFeatureHalt _ => .refused .controlRequestWithoutRule
  | .getStatus => .refused .controlRequestWithoutRule
  | .setInterface => .refused .controlRequestWithoutRule
  | .getInterface => .refused .controlRequestWithoutRule

end Sys2Proof.Machine
end

