-- ==== Sys2Proof/WellFormed.lean ====
section
/-! DEFINITION. Which instructions are well formed under a configuration, and which configurations
keep the opcode map unambiguous. -/

namespace Sys2Proof

/-- The eleven opcode values of R98 under a configuration, in the order of the table. -/
def Config.opcodes (c : Config) : List Byte :=
  [c.opcTur, c.opcReqSense, c.opcInquiry, c.opcModeSense6, c.opcStartStop, c.opcPrevent,
   c.opcRdFmtCap, c.opcRdCap, c.opcRead10, c.opcWrite10, c.opcVerify]

/-- The four supported VPD page codes of R99. -/
def Config.vpdPages (c : Config) : List Byte :=
  [c.vpdPageSupported, c.vpdPageSerial, c.vpdPageDevId, c.vpdPageBlkLim]

/-- The opcode values, the page codes and the two class request codes are distinct, so that each
encoding has one meaning ("compare `cb[0]` with the eleven opcode values", R102; log 9). -/
abbrev Config.unambiguous (c : Config) : Prop :=
  c.opcodes.Nodup ∧ c.vpdPages.Nodup ∧ c.reqGetMaxLun ≠ c.reqBotReset

/-- Whether R330 gives a forwarded request a rule: the four of R336 have none. -/
def CtrlRequest.hasRule : CtrlRequest → Bool
  | .clearHalt _ => true
  | .getMaxLun => true
  | .botReset => true
  | .setFeatureHalt _ => false
  | .getStatus => false
  | .setInterface => false
  | .getInterface => false

/-- The checks the syntax alone cannot make: an unknown opcode is none of the eleven (R205), an
unsupported page is none of the four (R225), a media event names a LUN that exists (R309), and a
forwarded request has a rule (R330, R336). -/
def wellFormed (c : Config) : Instr → Bool
  | .unknown _ opcode => opcode ∉ c.opcodes
  | .inquiryVpdUnsupported _ page => page ∉ c.vpdPages
  | .evMedia l _ => l < c.numLuns
  | .evCtrl req => req.hasRule
  | .testUnitReady _ => true
  | .requestSense _ => true
  | .inquiryVpdSupportedPages _ => true
  | .inquiryVpdSerialNumber _ => true
  | .inquiryVpdDeviceId _ => true
  | .inquiryVpdBlockLimits _ => true
  | .inquiryStd _ => true
  | .modeSense6 _ => true
  | .startStopUnit _ _ _ => true
  | .preventAllow _ => true
  | .readFormatCapacity _ => true
  | .readCapacity _ => true
  | .read10 _ _ _ => true
  | .write10 _ _ _ => true
  | .verify _ => true
  | .clearFeatureEndpointHalt _ => true
  | .getMaxLun => true
  | .botReset => true
  | .evConfig => true
  | .evBusReset => true
  | .evDisconnect => true
  | .evSuspend => true
  | .evRxReady => true
  | .evRxReadyData => true
  | .evTxDrained => true
  | .dataStepTx => true
  | .dispatchDone => true

end Sys2Proof
end

