-- ==== Sys2Proof/Decode.lean ====
section
/-! DEFINITION. The decoder, total on any bytes and rejecting by name (R93, R99 to R105), the encoder
of the canonical form (R105, R111), and the words of `spec/opcode_table.json` (R112). -/

namespace Sys2Proof

/-- Why bytes are no instruction. -/
inductive DecodeError where
  /-- Not a valid CBW: wrong length or wrong signature (R93). The machine enters a phase error. -/
  | badFraming
  /-- A valid CBW whose `cbLength` is 0 or above 16 (R104, U1). The machine refuses. -/
  | badCbLength
  /-- Eight bytes that are none of the three SETUP packets of R105, or not eight bytes. -/
  | badSetup
  /-- A CSW is "produced, never decoded", and events "have no binary encoding" (R90, R106). -/
  | noEncoding
  deriving DecidableEq, Repr, Inhabited

/-- The CBW signature, the characters `U` `S` `B` `C` (R91). -/
def cbwSignature : List Byte := [0x55, 0x53, 0x42, 0x43]

/-- R93: "`buf.occupied = 31` and `buf.data[0..3]` equals the signature". -/
def cbwValid (buf : List Byte) : Bool :=
  buf.length = 31 && buf.take 4 = cbwSignature

/-- R104: `cbLength` in 1..16 is ignored, any other value has no meaning. -/
def cbLengthOk (cbLength : Byte) : Bool :=
  1 ≤ cbLength.toNat && cbLength.toNat ≤ 16

/-- R92: the header operands of a CBW. -/
def decodeHeader (c : Config) (cbw : List Byte) : CbwHeader where
  tag := ⟨byteAt cbw 4, byteAt cbw 5, byteAt cbw 6, byteAt cbw 7⟩
  xferLen := unle32 (byteAt cbw 8) (byteAt cbw 9) (byteAt cbw 10) (byteAt cbw 11)
  dir := if (byteAt cbw 12).getLsbD 7 = c.dirInPolarity then .dirIn else .dirOut
  lun := (byteAt cbw 13).extractLsb' 0 4

/-- R99: the INQUIRY sub-decode on `evpd = cb[1][0:0]` and `page = cb[2]`. -/
def decodeInquiry (c : Config) (h : CbwHeader) (cb : List Byte) : Instr :=
  let page := byteAt cb 2
  if (byteAt cb 1).getLsbD 0 = false then .inquiryStd h
  else if page = c.vpdPageSupported then .inquiryVpdSupportedPages h
  else if page = c.vpdPageSerial then .inquiryVpdSerialNumber h
  else if page = c.vpdPageDevId then .inquiryVpdDeviceId h
  else if page = c.vpdPageBlkLim then .inquiryVpdBlockLimits h
  else .inquiryVpdUnsupported h page

/-- R100: `lba = cb[2..5]`, big-endian. -/
def decodeLba (cb : List Byte) : Word :=
  unbe32 (byteAt cb 2) (byteAt cb 3) (byteAt cb 4) (byteAt cb 5)

/-- R100: `count = cb[7..8]`, big-endian. -/
def decodeCount (cb : List Byte) : BitVec 16 := unbe16 (byteAt cb 7) (byteAt cb 8)

/-- R102: `Decode(cb)`, the total command decoder. -/
def decodeCommand (c : Config) (h : CbwHeader) (cb : List Byte) : Instr :=
  let op := byteAt cb 0
  if op = c.opcTur then .testUnitReady h
  else if op = c.opcReqSense then .requestSense h
  else if op = c.opcInquiry then decodeInquiry c h cb
  else if op = c.opcModeSense6 then .modeSense6 h
  else if op = c.opcStartStop then
    .startStopUnit h ((byteAt cb 4).getLsbD 1) ((byteAt cb 4).getLsbD 0)
  else if op = c.opcPrevent then .preventAllow h
  else if op = c.opcRdFmtCap then .readFormatCapacity h
  else if op = c.opcRdCap then .readCapacity h
  else if op = c.opcRead10 then .read10 h (decodeLba cb) (decodeCount cb)
  else if op = c.opcWrite10 then .write10 h (decodeLba cb) (decodeCount cb)
  else if op = c.opcVerify then .verify h
  else .unknown h op

/-- The command a valid CBW carries: header by R92, command block `cb[i] = cbw[15+i]` by R102. -/
def decodeAcceptedCbw (c : Config) (cbw : List Byte) : Instr :=
  decodeCommand c (decodeHeader c cbw) (cbw.drop 15)

/-- The CBW decoder: framing (R93), `cbLength` (R104), then the command. -/
def decodeCbw (c : Config) (buf : List Byte) : Except DecodeError Instr :=
  if cbwValid buf then
    if cbLengthOk (byteAt buf 14) then .ok (decodeAcceptedCbw c buf)
    else .error .badCbLength
  else .error .badFraming

/-- The endpoint a USB endpoint address names: bit 7 set is device→host (log 10). -/
def endpointOfAddress (address : Byte) : Endpoint :=
  if address.getLsbD 7 then .tx else .rx

/-- The three SETUP packets of R105. -/
def decodeSetup (c : Config) (setup : List Byte) : Except DecodeError Instr :=
  match setup with
  | [reqType, req, valueLo, valueHi, indexLo, indexHi, lenLo, lenHi] =>
    if valueLo ≠ 0x00 ∨ valueHi ≠ 0x00 ∨ indexHi ≠ 0x00 ∨ lenHi ≠ 0x00 then .error .badSetup
    else if reqType = 0x02 ∧ req = 0x01 ∧ lenLo = 0x00 then
      .ok (.clearFeatureEndpointHalt (endpointOfAddress indexLo))
    else if reqType = 0xA1 ∧ req = c.reqGetMaxLun ∧ lenLo = 0x01 then .ok .getMaxLun
    else if reqType = 0x21 ∧ req = c.reqBotReset ∧ lenLo = 0x00 then .ok .botReset
    else .error .badSetup
  | _ => .error .badSetup

/-- The decoder of each format of R90. -/
def decode (c : Config) (f : Format) (bytes : List Byte) : Except DecodeError Instr :=
  match f with
  | .cbw => decodeCbw c bytes
  | .csw => .error .noEncoding
  | .ctrl => decodeSetup c bytes
  | .event => .error .noEncoding

/-- The canonical CBW of R111 around a 16-byte command block. -/
def encodeCbw (c : Config) (h : CbwHeader) (cbLength : Byte) (cb : List Byte) : List Byte :=
  cbwSignature ++ [h.tag.t0, h.tag.t1, h.tag.t2, h.tag.t3] ++ le32 h.xferLen ++
    [if decide (h.dir = .dirIn) = c.dirInPolarity then 0x80 else 0x00,
     h.lun.setWidth 8, cbLength] ++ cb

/-- A CDB6 command: `cb[0..5]`, the other ten bytes 0 (R97, R111). -/
def encodeCdb6 (c : Config) (h : CbwHeader) (op option page byte4 : Byte) : List Byte :=
  encodeCbw c h 6 ([op, option, page, 0x00, byte4, 0x00] ++ List.replicate 10 0x00)

/-- A CDB10 command: `cb[0..9]`, the other six bytes 0 (R97, R111). -/
def encodeCdb10 (c : Config) (h : CbwHeader) (op : Byte) (lba : Word) (len : BitVec 16) : List Byte :=
  encodeCbw c h 10
    ([op, 0x00] ++ be32 lba ++ [0x00] ++ be16 len ++ [0x00] ++ List.replicate 6 0x00)

/-- The address `encodeSetup` gives an endpoint (log 10). -/
def addressOfEndpoint : Endpoint → Byte
  | .rx => 0x01
  | .tx => 0x81

/-- The canonical encoding of a well-formed instruction (R105, R111): the CBW of a command, the SETUP
packet of a control request, nothing for an event, which has no binary encoding (R106). The model's choice where
R111 is silent: `cbLength` 6 for UNKNOWN (log 28); an allocation length modulo the width of its field, and 0 for
an unsupported VPD page (log 29); the direction bit and the codes of a configuration that is not the default's
(log 15). -/
def encode (c : Config) : Instr → List Byte
  | .testUnitReady h => encodeCdb6 c h c.opcTur 0 0 0
  | .requestSense h => encodeCdb6 c h c.opcReqSense 0 0 (BitVec.ofNat 8 c.senseLen)
  | .inquiryVpdSupportedPages h =>
    encodeCdb6 c h c.opcInquiry 1 c.vpdPageSupported (BitVec.ofNat 8 c.vpdSupported.length)
  | .inquiryVpdSerialNumber h =>
    encodeCdb6 c h c.opcInquiry 1 c.vpdPageSerial (BitVec.ofNat 8 c.vpdSerial.length)
  | .inquiryVpdDeviceId h =>
    encodeCdb6 c h c.opcInquiry 1 c.vpdPageDevId (BitVec.ofNat 8 c.vpdDevId.length)
  | .inquiryVpdBlockLimits h =>
    encodeCdb6 c h c.opcInquiry 1 c.vpdPageBlkLim (BitVec.ofNat 8 c.vpdBlkLim.length)
  | .inquiryVpdUnsupported h page => encodeCdb6 c h c.opcInquiry 1 page 0
  | .inquiryStd h => encodeCdb6 c h c.opcInquiry 0 0 (BitVec.ofNat 8 c.inqStd.length)
  | .modeSense6 h => encodeCdb6 c h c.opcModeSense6 0 0 (BitVec.ofNat 8 c.mode6Len)
  | .startStopUnit h loej start =>
    encodeCdb6 c h c.opcStartStop 0 0 ((BitVec.ofBool loej ++ BitVec.ofBool start).setWidth 8)
  | .preventAllow h => encodeCdb6 c h c.opcPrevent 0 0 0
  | .readFormatCapacity h => encodeCdb10 c h c.opcRdFmtCap 0 (BitVec.ofNat 16 c.rdFmtLen)
  | .readCapacity h => encodeCdb10 c h c.opcRdCap 0 0
  | .read10 h lba count => encodeCdb10 c h c.opcRead10 lba count
  | .write10 h lba count => encodeCdb10 c h c.opcWrite10 lba count
  | .verify h => encodeCdb10 c h c.opcVerify 0 0
  | .unknown h opcode => encodeCdb6 c h opcode 0 0 0
  | .clearFeatureEndpointHalt ep => [0x02, 0x01, 0x00, 0x00, addressOfEndpoint ep, 0x00, 0x00, 0x00]
  | .getMaxLun => [0xA1, c.reqGetMaxLun, 0x00, 0x00, 0x00, 0x00, 0x01, 0x00]
  | .botReset => [0x21, c.reqBotReset, 0x00, 0x00, 0x00, 0x00, 0x00, 0x00]
  | .evConfig => []
  | .evBusReset => []
  | .evDisconnect => []
  | .evSuspend => []
  | .evRxReady => []
  | .evRxReadyData => []
  | .evTxDrained => []
  | .evCtrl _ => []
  | .evMedia _ _ => []
  | .dataStepTx => []
  | .dispatchDone => []

/-- Byte `i` of a number, byte 0 the least significant. -/
def byteOfNat (w i : Nat) : Byte := BitVec.ofNat 8 (w / 256 ^ i)

/-- The CBW that carries the 24-bit key `K = 2^16*cb[0] + 2^8*cb[1] + cb[2]` of a CBW row (R112): every
other operand byte 0, the signature and a `cbLength` of 16 as a valid CBW must have (log 8). -/
def tableCbw (w : Nat) : List Byte :=
  cbwSignature ++ List.replicate 10 0x00 ++ [0x10] ++
    [byteOfNat w 2, byteOfNat w 1, byteOfNat w 0] ++ List.replicate 13 0x00

/-- The SETUP packet that carries the 16-bit key `2^8*bmRequestType + bRequest` of a CTRL row (R112):
every other byte 0, but for the one-byte data stage of a request that R105 gives `wLength = 1`. -/
def tableSetup (w : Nat) : List Byte :=
  [byteOfNat w 1, byteOfNat w 0, 0x00, 0x00, 0x00, 0x00,
   if byteOfNat w 1 = 0xA1 then 0x01 else 0x00, 0x00]

/-- The instruction the decoder reads from a word of `spec/opcode_table.json` under the default
configuration: 24-bit keys are CBW rows, 16-bit keys CTRL rows, EVENT rows have no word (R112). -/
def decodeTableWord (nbits w : Nat) : Option Instr :=
  if nbits = 24 then (decodeCbw Config.default (tableCbw w)).toOption
  else if nbits = 16 then (decodeSetup Config.default (tableSetup w)).toOption
  else none

end Sys2Proof
end

