-- ==== Sys2Proof/Machine/FixedResponse.lean ====
section
/-! DEFINITION. The fixed-length response commands (`spec/44_scsi_fixed_response.md`). -/

namespace Sys2Proof.Machine

/-- An INQUIRY that answers a configured block: not LUN-state-sensitive, `SetupResp` of the block (R220 to
R224, R230). -/
def inquiryCommand (h : CbwHeader) (data : List Byte) (s : State) : State :=
  runCommand h (fun _ => alwaysReadyPolicy data.length) (fun _ s => setupResp data s) s

/-- INQUIRY_STD (R220). -/
def execInquiryStd (h : CbwHeader) (s : State) : Result := .next (inquiryCommand h s.cfg.inqStd s)

/-- INQUIRY_VPD_SUPPORTED_PAGES (R221). -/
def execInquiryVpdSupportedPages (h : CbwHeader) (s : State) : Result :=
  .next (inquiryCommand h s.cfg.vpdSupported s)

/-- INQUIRY_VPD_SERIAL_NUMBER (R222). -/
def execInquiryVpdSerialNumber (h : CbwHeader) (s : State) : Result :=
  .next (inquiryCommand h s.cfg.vpdSerial s)

/-- INQUIRY_VPD_DEVICE_ID (R223). -/
def execInquiryVpdDeviceId (h : CbwHeader) (s : State) : Result :=
  .next (inquiryCommand h s.cfg.vpdDevId s)

/-- INQUIRY_VPD_BLOCK_LIMITS (R224). -/
def execInquiryVpdBlockLimits (h : CbwHeader) (s : State) : Result :=
  .next (inquiryCommand h s.cfg.vpdBlkLim s)

/-- INQUIRY_VPD_UNSUPPORTED (R225): `raise Fail(INVALID_FIELD_IN_CBW)` at recognition. -/
def execInquiryVpdUnsupported (h : CbwHeader) (_page : Byte) (s : State) : Result :=
  .next (rejectCommand h .invalidFieldInCbw s)

/-- READ_CAPACITY (R226). -/
def execReadCapacity (h : CbwHeader) (s : State) : Result :=
  .next (runCommand h (fun _ => mediaResponsePolicy s.cfg.rdCapLen)
    (fun u s => setupResp (responseOf s.cfg.rdCapLen (capacityData u) s) s) s)

/-- READ_FORMAT_CAPACITY (R227). -/
def execReadFormatCapacity (h : CbwHeader) (s : State) : Result :=
  .next (runCommand h (fun _ => mediaResponsePolicy s.cfg.rdFmtLen)
    (fun u s => setupResp (responseOf s.cfg.rdFmtLen (formatCapacityData u) s) s) s)

/-- REQUEST_SENSE (R228): reports the pending sense and clears it to `OK`. -/
def execRequestSense (h : CbwHeader) (s : State) : Result :=
  .next (runCommand h (fun _ => alwaysReadyPolicy s.cfg.senseLen)
    (fun u s => recordSense s.ctx.lunSel.toNat .ok
      (setupResp (responseOf s.cfg.senseLen (senseData (senseTriple s.cfg u.lastSense)) s) s)) s)

/-- MODE_SENSE6 (R229): the same "minimal fixed 4-byte response" for every page. -/
def execModeSense6 (h : CbwHeader) (s : State) : Result :=
  .next (runCommand h (fun _ => mediaResponsePolicy s.cfg.mode6Len)
    (fun _ s => setupResp s.cfg.mode6Data.toList s) s)

end Sys2Proof.Machine
end

