-- ==== Sys2Proof/Machine/ReadWrite.lean ====
section
/-! DEFINITION. READ(10) and WRITE(10) (`spec/45_scsi_read_write.md`), and the two data steps: the
device→host step of R181 and the host→device step of R253. -/

namespace Sys2Proof.Machine

/-- READ10 (R250): the range check, then the descriptor of kind `RD`. -/
def execRead10 (h : CbwHeader) (lba : Word) (count : BitVec 16) (s : State) : Result :=
  .next (runCommand h (transferPolicy .dirIn count)
    (fun u s =>
      if rangeOk lba count u then
        s.setXfer (.rd (lba.toNat * u.blockSize) (count.toNat * u.blockSize))
      else commandFail .invalidLba s) s)

/-- WRITE10 (R251): the range check, then the descriptor of kind `WR`. -/
def execWrite10 (h : CbwHeader) (lba : Word) (count : BitVec 16) (s : State) : Result :=
  .next (runCommand h (transferPolicy .dirOut count)
    (fun u s =>
      if rangeOk lba count u then
        s.setXfer (.wr (lba.toNat * u.blockSize) (count.toNat * u.blockSize))
      else commandFail .invalidLba s) s)

/-- One device→host buffer (R181): acquire, then commit the `n` bytes of `chunk`; a failure of either is
`XferFail`. -/
def sendChunk (n : Nat) (chunk : Option (List Byte)) (s : State) : Result :=
  match pipeAcquireTx s with
  | (false, s) => .next (xferFail s)
  | (true, s) =>
    match chunk with
    | none => .fault .storeOutOfRange
    | some bytes =>
      match pipeCommit bytes s with
      | (false, s) => .next (xferFail s)
      | (true, s) => .next (advanceXfer n s)

/-- DataStepTx (R181), enabled when `ctx.st = DISPATCHED` and the kind is `RESP` or `RD`; the worker does
not take it otherwise. -/
def execDataStepTx (s : State) : Result :=
  if s.ctx.st = .dispatched then
    match s.ctx.xfer with
    | .none => .next s
    | .wr _ _ => .next s
    | .resp bytes pos remaining =>
      let n := min s.cfg.bufCap remaining
      sendChunk n (some ((bytes.drop pos).take n)) s
    | .rd pos remaining =>
      let n := min s.cfg.bufCap remaining
      sendChunk n (memRead s.ctx.lunSel.toNat pos n s) s
  else .next s

/-- One payload buffer into the store (R253), the data phase standing at `pos` with `remaining` bytes. -/
def storePayload (b : Buffer) (pos remaining : Nat) (s : State) : Result :=
  if remaining < b.length then .refused .payloadOverrun
  else
    match memWrite s.ctx.lunSel.toNat pos b s with
    | none => .fault .storeOutOfRange
    | some s => .next (advanceXfer b.length (pipeDiscard s))

/-- Data-buffer-ready (R253): acquire the announced buffer; a failed acquire is `XferFail`, the buffer
lost. -/
def receivePayload (pos remaining : Nat) (s : State) : Result :=
  match pipeAcquireRx s with
  | (none, s) => .next (xferFail s)
  | (some b, s) => storePayload b pos remaining s

/-- EV_RX_READY.DATA (R253, R150 case 4): the event consumed while a WRITE(10) awaits payload; in any
other state it changes nothing. -/
def execEvRxReadyData (s : State) : Result :=
  if s.rxq.isEmpty || s.ctx.wedged then .next s
  else if s.ctx.st = .dispatched then
    match s.ctx.xfer with
    | .wr pos remaining => receivePayload pos remaining s
    | .none => .next s
    | .resp _ _ _ => .next s
    | .rd _ _ => .next s
  else .next s

end Sys2Proof.Machine
end

