-- ==== Sys2Proof/Machine/Reception.lean ====
section
/-! DEFINITION. CBW reception, parsing and validation (`spec/41_cbw_reception.md`): the block's
instruction fetch (R78). -/

namespace Sys2Proof.Machine

/-- CBW accept (R152): the copy of R26, busy with its link-power action, `st <- DISPATCHED`. -/
def acceptCbw (copy : List Byte) (s : State) : State :=
  (setBusy true { s with ctx := { s.ctx with cbw := copy } }).setSt .dispatched

/-- `Dispatch()` (R170) on a decoded command: the meaning of its row. `decodeCbw` answers no control
request and no event; those arms are never reached. -/
def dispatchCommand (i : Instr) (s : State) : Result :=
  match i with
  | .testUnitReady h => execTestUnitReady h s
  | .requestSense h => execRequestSense h s
  | .inquiryVpdSupportedPages h => execInquiryVpdSupportedPages h s
  | .inquiryVpdSerialNumber h => execInquiryVpdSerialNumber h s
  | .inquiryVpdDeviceId h => execInquiryVpdDeviceId h s
  | .inquiryVpdBlockLimits h => execInquiryVpdBlockLimits h s
  | .inquiryVpdUnsupported h page => execInquiryVpdUnsupported h page s
  | .inquiryStd h => execInquiryStd h s
  | .modeSense6 h => execModeSense6 h s
  | .startStopUnit h loej start => execStartStopUnit h loej start s
  | .preventAllow h => execPreventAllow h s
  | .readFormatCapacity h => execReadFormatCapacity h s
  | .readCapacity h => execReadCapacity h s
  | .read10 h lba count => execRead10 h lba count s
  | .write10 h lba count => execWrite10 h lba count s
  | .verify h => execVerify h s
  | .unknown h opcode => execUnknown h opcode s
  | .clearFeatureEndpointHalt _ => .next s
  | .getMaxLun => .next s
  | .botReset => .next s
  | .evConfig => .next s
  | .evBusReset => .next s
  | .evDisconnect => .next s
  | .evSuspend => .next s
  | .evRxReady => .next s
  | .evRxReadyData => .next s
  | .evTxDrained => .next s
  | .evCtrl _ => .next s
  | .evMedia _ _ => .next s
  | .dataStepTx => .next s
  | .dispatchDone => .next s

/-- What a received buffer leads to (R151): a valid CBW is accepted and dispatched in the same step; one
whose `cbLength` has no meaning is refused (R104); any other buffer is a phase error. -/
def parseCbw (b : Buffer) (s : State) : Result :=
  match decodeCbw s.cfg b with
  | .ok i => dispatchCommand i (acceptCbw b s)
  | .error .badCbLength => .refused .cbLengthOutOfRange
  | .error .badFraming => .next (raisePhaseError s)
  | .error .badSetup => .next (raisePhaseError s)
  | .error .noEncoding => .next (raisePhaseError s)

/-- CBW-buffer-ready (R151): a failed acquire loses the announced buffer and changes nothing else (U3). -/
def receiveCbw (s : State) : Result :=
  match pipeAcquireRx s with
  | (none, s) => .next s
  | (some b, s) => parseCbw b (pipeDiscard s)

/-- EV_RX_READY (R150): classified "by current state, not by content" when it is consumed. -/
def execEvRxReady (s : State) : Result :=
  if s.rxq.isEmpty || s.ctx.wedged then .next s
  else if s.ctx.st = .cbwWait && !s.ctx.phaseError then receiveCbw s
  else if s.ctx.st = .dispatched then
    match s.ctx.xfer with
    | .wr pos remaining => receivePayload pos remaining s
    | .none => .next s
    | .resp _ _ _ => .next s
    | .rd _ _ => .next s
  else .next s

end Sys2Proof.Machine
end

