-- ==== Sys2Proof/Machine/StatusPhase.lean ====
section
/-! DEFINITION. The status phase (`spec/46_status_csw.md`). -/

namespace Sys2Proof.Machine

/-- R283: `Stall(RX)` for an unfinished OUT data phase, before the CSW. -/
def stallUnfinishedOut (s : State) : State :=
  if s.ctx.dir = .dirOut ∧ s.ctx.residue ≠ 0 then stall .rx s else s

/-- R284: `Stall(TX)` for a short IN data phase, after the CSW. -/
def stallShortIn (s : State) : State :=
  if s.ctx.dir = .dirIn ∧ s.ctx.residue ≠ 0 then stall .tx s else s

/-- The end of R280 once the CSW is queued: R282, R284, and `st <- STATUS`. -/
def finishCommand (s : State) : State :=
  let s := stallShortIn (setBusy false s)
  { s with ctx := { s.ctx with residue := 0, st := .status } }

/-- STATUS entry (R280): R283, then the CSW of R281; stuck if it cannot be queued (R285). -/
def enterStatus (s : State) : State :=
  let s := stallUnfinishedOut s
  match queueTx (cswBytes s.ctx.tag s.ctx.residue s.ctx.status) s with
  | (false, s) => wedge s
  | (true, s) => finishCommand s

/-- DispatchDone (R185): enabled when `ctx.st = DISPATCHED`, the kind is `NONE` and the block is not
stuck; the worker does not take it otherwise. -/
def execDispatchDone (s : State) : Result :=
  if s.ctx.st = .dispatched ∧ s.ctx.xfer = .none ∧ s.ctx.wedged = false then .next (enterStatus s)
  else .next s

end Sys2Proof.Machine
end

