-- ==== Sys2Proof/Machine/Dispatch.lean ====
section
/-! DEFINITION. The meaning of every row of `spec/opcode_table.json`: one arm per constructor. -/

namespace Sys2Proof.Machine

def exec (i : Instr) (s : State) : Host.Outcome State Fault Refusal :=
  match i with
  | .testUnitReady h => Sys2Proof.Machine.execTestUnitReady h s
  | .requestSense h => Sys2Proof.Machine.execRequestSense h s
  | .inquiryVpdSupportedPages h => Sys2Proof.Machine.execInquiryVpdSupportedPages h s
  | .inquiryVpdSerialNumber h => Sys2Proof.Machine.execInquiryVpdSerialNumber h s
  | .inquiryVpdDeviceId h => Sys2Proof.Machine.execInquiryVpdDeviceId h s
  | .inquiryVpdBlockLimits h => Sys2Proof.Machine.execInquiryVpdBlockLimits h s
  | .inquiryVpdUnsupported h page => Sys2Proof.Machine.execInquiryVpdUnsupported h page s
  | .inquiryStd h => Sys2Proof.Machine.execInquiryStd h s
  | .modeSense6 h => Sys2Proof.Machine.execModeSense6 h s
  | .startStopUnit h loej start => Sys2Proof.Machine.execStartStopUnit h loej start s
  | .preventAllow h => Sys2Proof.Machine.execPreventAllow h s
  | .readFormatCapacity h => Sys2Proof.Machine.execReadFormatCapacity h s
  | .readCapacity h => Sys2Proof.Machine.execReadCapacity h s
  | .read10 h lba count => Sys2Proof.Machine.execRead10 h lba count s
  | .write10 h lba count => Sys2Proof.Machine.execWrite10 h lba count s
  | .verify h => Sys2Proof.Machine.execVerify h s
  | .unknown h opcode => Sys2Proof.Machine.execUnknown h opcode s
  | .clearFeatureEndpointHalt ep => Sys2Proof.Machine.execClearFeatureEndpointHalt ep s
  | .getMaxLun => Sys2Proof.Machine.execGetMaxLun s
  | .botReset => Sys2Proof.Machine.execBotReset s
  | .evConfig => Sys2Proof.Machine.execEvConfig s
  | .evBusReset => Sys2Proof.Machine.execEvBusReset s
  | .evDisconnect => Sys2Proof.Machine.execEvDisconnect s
  | .evSuspend => Sys2Proof.Machine.execEvSuspend s
  | .evRxReady => Sys2Proof.Machine.execEvRxReady s
  | .evRxReadyData => Sys2Proof.Machine.execEvRxReadyData s
  | .evTxDrained => Sys2Proof.Machine.execEvTxDrained s
  | .evCtrl req => Sys2Proof.Machine.execEvCtrl req s
  | .evMedia l present => Sys2Proof.Machine.execEvMedia l present s
  | .dataStepTx => Sys2Proof.Machine.execDataStepTx s
  | .dispatchDone => Sys2Proof.Machine.execDispatchDone s

end Sys2Proof.Machine
end

