-- ==== Sys2Proof/Machine/Environment.lean ====
section
/-! DEFINITION. The environment's steps (R141, R142, R355): they append to `evq` and move buffers by the
pipe contract, and do nothing else to the block (R8, R40). A step whose enabling condition fails does not
happen: the host's transfer is answered NAK or STALL and no data moves (R139, R140). -/

namespace Sys2Proof.Machine

/-- Appends an event to the queue (R40). -/
def State.enqueue (s : State) (e : Event) : State := { s with evq := s.evq ++ [e] }

/-- `RxFill(bytes)` (R141). -/
def rxFill (bytes : Buffer) (s : State) : State :=
  if s.armed && !s.haltRx && 1 ≤ bytes.length && bytes.length ≤ s.cfg.bufCap then
    ({ s with rxq := s.rxq ++ [bytes] } : State).enqueue .rxReady
  else s

/-- `TxDrain` (R142). -/
def txDrain (s : State) : State :=
  match s.txq with
  | [] => s
  | b :: q =>
    if s.haltTx then s
    else ({ s with txq := q, hostRx := s.hostRx ++ [b] } : State).enqueue .txDrained

/-- Whether a source other than the pipe engine may post an event (R355): `EV_RX_READY` and
`EV_TX_DRAINED` come only with `RxFill` and `TxDrain`. -/
def Event.postable : Event → Bool
  | .rxReady => false
  | .txDrained => false
  | .config => true
  | .busReset => true
  | .disconnect => true
  | .suspend => true
  | .ctrl _ => true
  | .media _ _ => true

/-- The bus-event source, the control-request forwarder or the media detector posts an event (R355). -/
def postEvent (e : Event) (s : State) : State := if Event.postable e then s.enqueue e else s

end Sys2Proof.Machine
end

