-- ==== Sys2Proof/Machine/Worker.lean ====
section
/-! DEFINITION. The worker's loop (R301): which step is enabled, which one it takes, and the row of
`spec/opcode_table.json` a consumed event is. -/

namespace Sys2Proof.Machine

/-- The enabled internal step, if any (R181, R185): "at most one internal step is enabled at a time", and none
while the block is stuck (R285). -/
def internalStep (s : State) : Option Instr :=
  if s.ctx.st = .dispatched ∧ s.ctx.wedged = false then
    match s.ctx.xfer with
    | .none => some .dispatchDone
    | .resp _ _ _ => some .dataStepTx
    | .rd _ _ => some .dataStepTx
    | .wr _ _ => none
  else none

/-- The row of the opcode table an event consumed in state `s` is; EV_RX_READY is told from
EV_RX_READY.DATA by the state (R112). -/
def instrOfEvent (e : Event) (s : State) : Instr :=
  match e with
  | .config => .evConfig
  | .busReset => .evBusReset
  | .disconnect => .evDisconnect
  | .suspend => .evSuspend
  | .rxReady => if s.ctx.st = .dispatched && s.ctx.xfer.isWrite then .evRxReadyData else .evRxReady
  | .txDrained => .evTxDrained
  | .ctrl req => .evCtrl req
  | .media l present => .evMedia l present

/-- The worker's pick where the schedule lists none: a free value (R301, U9). -/
def freePick (s : State) : WorkerPick := Config.freePick s.env.draws

/-- The state after a free pick. -/
def drawnPick (s : State) : State := { s with env := { s.env with draws := s.env.draws + 1 } }

/-- The instruction of the head event, and the state with that event consumed (R301 b). -/
def takeEvent (s : State) : Option (Instr × State) :=
  match s.evq with
  | [] => none
  | e :: q => some (instrOfEvent e s, { s with evq := q })

/-- The step the worker takes (R301): the one enabled, or `pick` when both an internal step and an event
are; none when nothing is enabled (R11). -/
def workerStep (pick : WorkerPick) (s : State) : Option (Instr × State) :=
  match internalStep s, takeEvent s with
  | none, t => t
  | some i, none => some (i, s)
  | some i, some t =>
    match pick with
    | .internal => some (i, s)
    | .event => some t

/-- The worker's step when the schedule lists nothing: a pick is drawn only when two steps are enabled. -/
def unscheduledStep (s : State) : Option (Instr × State) :=
  if (internalStep s).isSome && !s.evq.isEmpty then workerStep (freePick s) (drawnPick s)
  else workerStep .event s

/-- The event a control request of the opcode table is forwarded as (R330). -/
def forwardedRequest : Instr → Option CtrlRequest
  | .clearFeatureEndpointHalt ep => some (.clearHalt ep)
  | .getMaxLun => some .getMaxLun
  | .botReset => some .botReset
  | .testUnitReady _ => none
  | .requestSense _ => none
  | .inquiryVpdSupportedPages _ => none
  | .inquiryVpdSerialNumber _ => none
  | .inquiryVpdDeviceId _ => none
  | .inquiryVpdBlockLimits _ => none
  | .inquiryVpdUnsupported _ _ => none
  | .inquiryStd _ => none
  | .modeSense6 _ => none
  | .startStopUnit _ _ _ => none
  | .preventAllow _ => none
  | .readFormatCapacity _ => none
  | .readCapacity _ => none
  | .read10 _ _ _ => none
  | .write10 _ _ _ => none
  | .verify _ => none
  | .unknown _ _ => none
  | .evConfig => none
  | .evBusReset => none
  | .evDisconnect => none
  | .evSuspend => none
  | .evRxReady => none
  | .evRxReadyData => none
  | .evTxDrained => none
  | .evCtrl _ => none
  | .evMedia _ _ => none
  | .dataStepTx => none
  | .dispatchDone => none

/-- Places a CBW where the worker consumes it next: `CBW_WAIT`, no phase error, not stuck, the buffer in
`RX.q`, its notification at the head of `evq`, an acquire that returns it, and a worker turn (log 8). -/
def presentCbw (cbw : Buffer) (s : State) : State :=
  { s with
    ctx := { s.ctx with st := .cbwWait, phaseError := false, wedged := false }
    rxq := [cbw]
    evq := .rxReady :: s.evq
    env := { s.env with schedule := .worker .event :: s.env.schedule,
                        acquires := .buffer :: s.env.acquires } }

/-- Places an event where the worker consumes it next (log 8). -/
def presentEvent (e : Event) (s : State) : State :=
  { s with
    evq := e :: s.evq
    env := { s.env with schedule := .worker .event :: s.env.schedule } }

/-- Places the word of an opcode-table row where the worker takes its next instruction (log 8). -/
def placeWord (s : State) (nbits w : Nat) : State :=
  if nbits = 24 then presentCbw (tableCbw w) s
  else
    match decodeTableWord nbits w with
    | none => s
    | some i =>
      match forwardedRequest i with
      | none => s
      | some req => presentEvent (.ctrl req) s

end Sys2Proof.Machine
end

