-- ==== Sys2Proof/Machine/Step.lean ====
section
/-! DEFINITION. One step of the machine: the worker's or the environment's, as the schedule lists it. -/

namespace Sys2Proof.Machine

/-- Runs the instruction the worker takes; with nothing enabled the worker waits (R11, R401). -/
def runTaken (taken : Option (Instr × State)) (s : State) : Host.Outcome State Fault Refusal :=
  match taken with
  | some (i, s') => exec i s'
  | none => .next s

/-- The state with its schedule replaced. -/
def State.setSchedule (s : State) (schedule : List Turn) : State :=
  { s with env := { s.env with schedule := schedule } }

/-- One step (R301, R357): the turn at the head of the schedule, or the worker's when none is listed. A
configuration outside R6 is refused (D44, U12). -/
def step (s : State) : Host.Outcome State Fault Refusal :=
  if configInRange s.cfg then
    match s.env.schedule with
    | [] => runTaken (unscheduledStep s) s
    | .worker pick :: rest => runTaken (workerStep pick (s.setSchedule rest)) (s.setSchedule rest)
    | .rxFill bytes :: rest => .next (rxFill bytes (s.setSchedule rest))
    | .txDrain :: rest => .next (txDrain (s.setSchedule rest))
    | .post e :: rest => .next (postEvent e (s.setSchedule rest))
  else .refused .configOutOfRange

/-- `s` with the word of an opcode-table row where `step` takes its next instruction (log 8). -/
def State.withFetchWord (s : State) (nbits w : Nat) : State := placeWord s nbits w

end Sys2Proof.Machine
end

