-- ==== Sys2Proof/Safety.lean ====
section
/-! DEFINITION. The terms claims are stated in: the invariant of a run (R44, R140, R186, R300), the
policy of each row (R109), and runs of a data phase. -/

namespace Sys2Proof

/-- The header operands of a SCSI command; control requests and events have none. -/
def Instr.header : Instr → Option CbwHeader
  | .testUnitReady h => some h
  | .requestSense h => some h
  | .inquiryVpdSupportedPages h => some h
  | .inquiryVpdSerialNumber h => some h
  | .inquiryVpdDeviceId h => some h
  | .inquiryVpdBlockLimits h => some h
  | .inquiryVpdUnsupported h _ => some h
  | .inquiryStd h => some h
  | .modeSense6 h => some h
  | .startStopUnit h _ _ => some h
  | .preventAllow h => some h
  | .readFormatCapacity h => some h
  | .readCapacity h => some h
  | .read10 h _ _ => some h
  | .write10 h _ _ => some h
  | .verify h => some h
  | .unknown h _ => some h
  | .clearFeatureEndpointHalt _ => none
  | .getMaxLun => none
  | .botReset => none
  | .evConfig => none
  | .evBusReset => none
  | .evDisconnect => none
  | .evSuspend => none
  | .evRxReady => none
  | .evRxReadyData => none
  | .evTxDrained => none
  | .evCtrl _ => none
  | .evMedia _ _ => none
  | .dataStepTx => none
  | .dispatchDone => none

namespace Machine

/-- The table of R109: the policy of a command on a LUN; UNKNOWN and INQUIRY_VPD_UNSUPPORTED have none
("fails before validation"), and so have control requests and events. -/
def commandPolicy (c : Config) (u : Lun) : Instr → Option Policy
  | .testUnitReady _ => some ⟨none, true, true⟩
  | .verify _ => some ⟨none, true, true⟩
  | .preventAllow _ => some ⟨none, true, true⟩
  | .startStopUnit _ _ _ => some ⟨none, true, false⟩
  | .unknown _ _ => none
  | .inquiryStd _ => some ⟨some ⟨.dirIn, c.inqStd.length⟩, false, false⟩
  | .inquiryVpdSupportedPages _ => some ⟨some ⟨.dirIn, c.vpdSupported.length⟩, false, false⟩
  | .inquiryVpdSerialNumber _ => some ⟨some ⟨.dirIn, c.vpdSerial.length⟩, false, false⟩
  | .inquiryVpdDeviceId _ => some ⟨some ⟨.dirIn, c.vpdDevId.length⟩, false, false⟩
  | .inquiryVpdBlockLimits _ => some ⟨some ⟨.dirIn, c.vpdBlkLim.length⟩, false, false⟩
  | .inquiryVpdUnsupported _ _ => none
  | .readCapacity _ => some ⟨some ⟨.dirIn, c.rdCapLen⟩, true, true⟩
  | .readFormatCapacity _ => some ⟨some ⟨.dirIn, c.rdFmtLen⟩, true, true⟩
  | .requestSense _ => some ⟨some ⟨.dirIn, c.senseLen⟩, false, false⟩
  | .modeSense6 _ => some ⟨some ⟨.dirIn, 4⟩, true, true⟩
  | .read10 _ _ count => some ⟨some ⟨.dirIn, count.toNat * u.blockSize⟩, true, true⟩
  | .write10 _ _ count => some ⟨some ⟨.dirOut, count.toNat * u.blockSize⟩, true, true⟩
  | .clearFeatureEndpointHalt _ => none
  | .getMaxLun => none
  | .botReset => none
  | .evConfig => none
  | .evBusReset => none
  | .evDisconnect => none
  | .evSuspend => none
  | .evRxReady => none
  | .evRxReadyData => none
  | .evTxDrained => none
  | .evCtrl _ => none
  | .evMedia _ _ => none
  | .dataStepTx => none
  | .dispatchDone => none

/-- What a declared length and direction must be (R174, R175): nothing declared when the command has no data
phase; else the expected direction and exactly the expected, nonzero, length. -/
def Policy.accepts (p : Policy) (h : CbwHeader) : Prop :=
  match p.dataPhase with
  | none => h.xferLen = 0
  | some d => h.xferLen ≠ 0 ∧ h.dir = d.dir ∧ h.xferLen.toNat = d.len

/-- Whether dispatch step 4 lets a command pass (R176). -/
def Policy.ready (p : Policy) (u : Lun) : Prop :=
  (p.media = true → u.mediaPresent = true) ∧ (p.stop = true → u.stopped = false)

/-- The state with the operands of a command latched (R171) and its residue, status and data phase. -/
def State.withCommand (s : State) (h : CbwHeader) (residue : Word) (status : CswStatus) (x : Xfer) :
    State :=
  { s with ctx := { s.ctx with tag := h.tag, xferLen := h.xferLen, dir := h.dir, lunSel := h.lun,
                               residue := residue, status := status, xfer := x } }

/-- The state with LUN record `l` replaced. -/
def State.withLun (s : State) (l : Nat) (u : Lun) : State := { s with luns := s.luns.set l u }

/-- One byte of the store of a LUN: none when the LUN does not exist. -/
def State.storeByte (s : State) (l a : Nat) : Option Byte := s.luns[l]?.map fun u => u.store.byte a

/-- The environment after `acquires` outcomes of `PipeAcquire`, `commits` of `PipeCommit` and `total` draws in
all (R131, R132; logs 3 to 5). -/
def Env.drawn (acquires commits total : Nat) (e : Env) : Env :=
  { e with acquires := e.acquires.drop acquires, commits := e.commits.drop commits, draws := e.draws + total }

/-- The outcome of the `PipeAcquire` that comes after `acquires` others and `total` draws in all. -/
def State.acquireAfter (s : State) (acquires total : Nat) : AcquireDraw :=
  ({ s with env := s.env.drawn acquires 0 total } : State).nextAcquire

/-- The outcome of the next `PipeCommit`, when `total` draws come before it. -/
def State.commitAfter (s : State) (total : Nat) : CommitDraw :=
  ({ s with env := s.env.drawn 0 0 total } : State).nextCommit

/-- The store bytes an instruction writes, as LUN, first address and length (R253): the head buffer of `RX.q`
at the position of a WRITE(10) under way, and nothing for every other instruction or state. -/
def storedRange (i : Instr) (s : State) : Option (Nat × Nat × Nat) :=
  match i.header, s.ctx.xfer, s.rxq with
  | none, .wr pos _, b :: _ =>
    if (i = .evRxReady ∨ i = .evRxReadyData) ∧ s.ctx.st = .dispatched then
      some (s.ctx.lunSel.toNat, pos, b.length)
    else none
  | _, _, _ => none

/-- The geometry of a LUN record (R36). -/
def Lun.geometry (u : Lun) : Nat × Nat := (u.blockSize, u.blockCount)

/-- The worker waits for a buffer: in `CBW_WAIT` without a phase error, or for WRITE(10) payload (R140). -/
def waitsForRx (s : State) : Prop :=
  s.ctx.wedged = false ∧
    ((s.ctx.st = .cbwWait ∧ s.ctx.phaseError = false) ∨
      (s.ctx.st = .dispatched ∧ s.ctx.xfer.isWrite = true))

/-- The capacity of the selected LUN; 0 when it does not exist. -/
def selectedCapacity (s : State) : Nat :=
  match s.luns[s.ctx.lunSel.toNat]? with
  | none => 0
  | some u => u.capacity

/-- What a data phase under way satisfies (R180, R186, R250): something remains, the residue is exactly what
remains, the direction is the phase's, and the bytes still to move exist. -/
def dataPhaseOk (s : State) : Prop :=
  match s.ctx.xfer with
  | .none => True
  | .resp bytes pos remaining =>
    1 ≤ remaining ∧ s.ctx.residue.toNat = remaining ∧ s.ctx.dir = .dirIn ∧
      pos + remaining = bytes.length
  | .rd pos remaining =>
    1 ≤ remaining ∧ s.ctx.residue.toNat = remaining ∧ s.ctx.dir = .dirIn ∧
      pos + remaining ≤ selectedCapacity s
  | .wr pos remaining =>
    1 ≤ remaining ∧ s.ctx.residue.toNat = remaining ∧ s.ctx.dir = .dirOut ∧
      pos + remaining ≤ selectedCapacity s

/-- The invariant of a run. -/
structure Inv (s : State) : Prop where
  /-- The configuration is one R6 admits. -/
  config : configInRange s.cfg = true
  /-- "fixed medium geometry" (R36). -/
  geometry : s.luns.map Lun.geometry = s.cfg.luns.map fun l => (l.blockSize, l.blockCount)
  /-- Every store has the canonical form and lists only addresses it has (R42, R60). -/
  stores : ∀ u ∈ s.luns, u.store.wf ∧ ∀ x ∈ u.store, x.1 < u.capacity
  /-- `ctx.cbw` is 31 bytes (R26). -/
  cbwLength : s.ctx.cbw.length = 31
  /-- (I-a) busy exactly from acceptance of a CBW to the queuing of its CSW (R44). -/
  busy_iff : s.ctx.busy = true ↔ s.ctx.st = .dispatched
  /-- (I-b) the residue is only nonzero between CBW parse and CSW send (R44). -/
  residue_idle : s.ctx.residue ≠ 0 → s.ctx.st = .dispatched
  /-- (I-d) a data phase only while dispatched and busy (R44). -/
  xfer_idle : s.ctx.xfer ≠ .none → s.ctx.st = .dispatched ∧ s.ctx.busy = true
  /-- (I-e) the residue never exceeds the declared length (R44). -/
  residue_le : s.ctx.busy = true → s.ctx.residue.toNat ≤ s.ctx.xferLen.toNat
  /-- The data phase under way is consistent (R186). -/
  dataPhase : dataPhaseOk s
  /-- No command runs in a phase error, and its status is 2 (R24, R44 I-c). -/
  phaseError : s.ctx.phaseError = true →
    s.ctx.status = .phaseError ∧ (s.ctx.st = .cbwWait ∨ s.ctx.st = .status)
  /-- A command in flight has status 0 or 1 (R32). -/
  commandStatus : s.ctx.st = .dispatched → s.ctx.status ≠ .phaseError
  /-- In a phase error both endpoints are stalled once the block waits again (R24, R306), unless stuck. -/
  phaseErrorHalts : s.ctx.phaseError = true → s.ctx.st = .cbwWait → s.ctx.wedged = false →
    s.haltRx = true ∧ s.haltTx = true
  /-- Where the stuck condition can stand (R285, R300). -/
  wedged : s.ctx.wedged = true →
    (s.ctx.st = .cbwWait ∧ s.ctx.phaseError = true) ∨ (s.ctx.st = .dispatched ∧ s.ctx.xfer = .none)
  /-- "`RX.q` never holds more than one buffer" (R140). -/
  rx_one : s.rxq.length ≤ 1
  /-- A buffer in `RX.q` is one the worker waits for (R140). -/
  rx_wanted : s.rxq ≠ [] → waitsForRx s
  /-- Buffers hold 1 to `BUF_CAP` bytes (R43, R132, R141). -/
  rx_sizes : ∀ b ∈ s.rxq, 1 ≤ b.length ∧ b.length ≤ s.cfg.bufCap
  tx_sizes : ∀ b ∈ s.txq, 1 ≤ b.length ∧ b.length ≤ s.cfg.bufCap

/-- `k` data steps in a row (R181). -/
def runDataSteps : Nat → State → Host.Outcome State Fault Refusal
  | 0, s => .next s
  | k + 1, s =>
    match exec .dataStepTx s with
    | .next t => runDataSteps k t
    | .fault r => .fault r
    | .refused r => .refused r

/-- Host payload arriving one buffer at a time, each consumed before the next (R140, R253). -/
def runPayload : List Buffer → State → Host.Outcome State Fault Refusal
  | [], s => .next s
  | b :: bs, s =>
    match exec .evRxReadyData { s with rxq := [b] } with
    | .next t => runPayload bs t
    | .fault r => .fault r
    | .refused r => .refused r

end Machine

end Sys2Proof
end

