-- ==== Sys2Proof/Certificates/Slice0/Obligations.lean ====
section
/-! DEFINITION. The statements for the provers: what the rules of `spec/` say of the model. Each docstring
names the rules it formalises. -/

open Sys2Proof Sys2Proof.Machine

/-! ### Encoding -/

/-- R102, R105, R111: decoding the canonical encoding of a well-formed command or control request gives the
instruction back, with every operand at every value. The configuration keeps the codes distinct (log 9). -/
def Obligations.DecodingAnEncodingGivesTheInstructionBack : Prop :=
  ∀ (c : Config) (i : Instr), c.unambiguous → wellFormed c i = true → i.format ≠ .event →
    decode c i.format (encode c i) = .ok i

/-- R90, R102, R205, R225: what the decoder answers is well formed and of the format asked for. -/
def Obligations.DecodedInstructionsAreWellFormed : Prop :=
  ∀ (c : Config) (f : Format) (bytes : List Byte) (i : Instr), decode c f bytes = .ok i →
    wellFormed c i = true ∧ i.format = f

/-- R103: two valid CBWs that agree on the fields R92, R99, R100 and R101 name carry the same command; the
option bytes count only for the commands that read them. -/
def Obligations.IgnoredCbwBitsDoNotChangeTheCommand : Prop :=
  ∀ (c : Config) (x y : List Byte),
    cbwValid x = true → cbwValid y = true →
    cbLengthOk (byteAt x 14) = true → cbLengthOk (byteAt y 14) = true →
    (∀ n, 4 ≤ n → n < 12 → byteAt x n = byteAt y n) →
    (byteAt x 12).getLsbD 7 = (byteAt y 12).getLsbD 7 →
    (byteAt x 13).extractLsb' 0 4 = (byteAt y 13).extractLsb' 0 4 →
    byteAt x 15 = byteAt y 15 →
    (byteAt x 15 = c.opcInquiry →
      (byteAt x 16).getLsbD 0 = (byteAt y 16).getLsbD 0 ∧
        ((byteAt x 16).getLsbD 0 = true → byteAt x 17 = byteAt y 17)) →
    (byteAt x 15 = c.opcStartStop →
      (byteAt x 19).getLsbD 0 = (byteAt y 19).getLsbD 0 ∧
        (byteAt x 19).getLsbD 1 = (byteAt y 19).getLsbD 1) →
    (byteAt x 15 = c.opcRead10 ∨ byteAt x 15 = c.opcWrite10 →
      (∀ n, 17 ≤ n → n < 21 → byteAt x n = byteAt y n) ∧ byteAt x 22 = byteAt y 22 ∧
        byteAt x 23 = byteAt y 23) →
    decodeCbw c x = decodeCbw c y

/-- R92, R64: the operands every command takes from its CBW: the tag verbatim, the transfer length
little-endian, the direction bit by its polarity, the low four bits of the lun byte. -/
def Obligations.HeaderOperandsAreAssembledFromTheCbw : Prop :=
  ∀ (c : Config) (cbw : List Byte) (i : Instr), decodeCbw c cbw = .ok i →
    ∃ h, i.header = some h ∧
      [h.tag.t0, h.tag.t1, h.tag.t2, h.tag.t3] = (cbw.drop 4).take 4 ∧
      h.xferLen.toNat = (byteAt cbw 8).toNat + 2 ^ 8 * (byteAt cbw 9).toNat +
        2 ^ 16 * (byteAt cbw 10).toNat + 2 ^ 24 * (byteAt cbw 11).toNat ∧
      (h.dir = .dirIn ↔ (byteAt cbw 12).getLsbD 7 = c.dirInPolarity) ∧
      h.lun.toNat = (byteAt cbw 13).toNat % 16

/-- R100: the block address and the block count of READ(10) and WRITE(10) are big-endian, and no other byte
of the command block takes part. -/
def Obligations.ReadAndWriteOperandsAreBigEndian : Prop :=
  ∀ (c : Config) (cbw : List Byte), c.opcodes.Nodup →
    byteAt cbw 15 = c.opcRead10 ∨ byteAt cbw 15 = c.opcWrite10 →
    ∃ (lba : Word) (count : BitVec 16),
      lba.toNat = 2 ^ 24 * (byteAt cbw 17).toNat + 2 ^ 16 * (byteAt cbw 18).toNat +
        2 ^ 8 * (byteAt cbw 19).toNat + (byteAt cbw 20).toNat ∧
      count.toNat = 2 ^ 8 * (byteAt cbw 22).toNat + (byteAt cbw 23).toNat ∧
      decodeAcceptedCbw c cbw =
        if byteAt cbw 15 = c.opcRead10 then .read10 (decodeHeader c cbw) lba count
        else .write10 (decodeHeader c cbw) lba count

/-- R112, R98, R99, R105: a few words of the opcode table decode to their rows (a sanity statement). The zero
operands of `1B0000` and `280000` are those of the CBW the model wraps a table word in (log 8), and the endpoint
of `0201`, whose word names none, is RX (log 10): both are the model's choice, not the spec's. -/
def Obligations.OpcodeTableWordsDecodeToTheirRows : Prop :=
  (decodeTableWord 24 0x000000).map Instr.format = some .cbw ∧
    (∃ h, decodeTableWord 24 0x1B0000 = some (.startStopUnit h false false)) ∧
    (∃ h, decodeTableWord 24 0x120183 = some (.inquiryVpdDeviceId h)) ∧
    (∃ h, decodeTableWord 24 0x280000 = some (.read10 h 0 0)) ∧
    (∃ h, decodeTableWord 24 0xA00000 = some (.unknown h 0xA0)) ∧
    decodeTableWord 16 0xA1FE = some .getMaxLun ∧ decodeTableWord 16 0x21FF = some .botReset ∧
    decodeTableWord 16 0x0201 = some (.clearFeatureEndpointHalt .rx)

/-! ### The step -/

/-- R301 (b), R106, R112, R354: a worker turn consumes the head event and runs the row that event has, when
no internal step is enabled or the turn picks the event. EV_RX_READY runs the row EV_RX_READY.DATA exactly while
a WRITE(10) waits for payload. -/
def Obligations.WorkerTurnConsumesTheHeadEvent : Prop :=
  ∀ (s : State) (pick : WorkerPick) (rest : List Turn) (e : Event) (q : List Event) (i : Instr),
    configInRange s.cfg = true → s.env.schedule = .worker pick :: rest → s.evq = e :: q →
    s.ctx.st ≠ .dispatched ∨ s.ctx.wedged = true ∨ (∃ pos n, s.ctx.xfer = .wr pos n) ∨ pick = .event →
    (e = .config ∧ i = .evConfig) ∨ (e = .busReset ∧ i = .evBusReset) ∨
      (e = .disconnect ∧ i = .evDisconnect) ∨ (e = .suspend ∧ i = .evSuspend) ∨
      (e = .txDrained ∧ i = .evTxDrained) ∨ (∃ r, e = .ctrl r ∧ i = .evCtrl r) ∨
      (∃ l p, e = .media l p ∧ i = .evMedia l p) ∨
      (e = .rxReady ∧ i = .evRxReadyData ∧ s.ctx.st = .dispatched ∧ ∃ pos n, s.ctx.xfer = .wr pos n) ∨
      (e = .rxReady ∧ i = .evRxReady ∧ ¬ (s.ctx.st = .dispatched ∧ ∃ pos n, s.ctx.xfer = .wr pos n)) →
    step s = exec i { s with evq := q, env := { s.env with schedule := rest } }

/-- R301 (a), R181, R185: a worker turn runs the enabled internal step of a block that is not stuck, when no
event is queued or the turn picks it. -/
def Obligations.WorkerTurnRunsTheInternalStep : Prop :=
  ∀ (s : State) (pick : WorkerPick) (rest : List Turn),
    configInRange s.cfg = true → s.env.schedule = .worker pick :: rest →
    s.evq = [] ∨ pick = .internal → s.ctx.st = .dispatched → s.ctx.wedged = false →
    ((∃ bytes pos n, s.ctx.xfer = .resp bytes pos n) ∨ (∃ pos n, s.ctx.xfer = .rd pos n) →
      step s = exec .dataStepTx { s with env := { s.env with schedule := rest } }) ∧
    (s.ctx.xfer = .none →
      step s = exec .dispatchDone { s with env := { s.env with schedule := rest } })

/-- R78, R151, R152: a received buffer that decodes to an instruction is accepted and that instruction runs,
in one step; around it, the step copies the CBW, sets busy with its link-power action and discards the
buffer. -/
def Obligations.StepRunsTheDecodedCommand : Prop :=
  ∀ (s : State) (pick : WorkerPick) (rest : List Turn) (q : List Event) (b : Buffer) (r : List Buffer)
    (i : Instr),
    configInRange s.cfg = true → s.env.schedule = .worker pick :: rest → s.evq = .rxReady :: q →
    s.rxq = b :: r → s.ctx.st = .cbwWait → s.ctx.phaseError = false → s.ctx.wedged = false →
    s.nextAcquire = .buffer → decodeCbw s.cfg b = .ok i →
    wellFormed s.cfg i = true ∧
    step s = exec i
      { s with
        ctx := { s.ctx with cbw := b, busy := true, st := .dispatched }
        evq := q
        rxq := r
        trace := s.trace ++ [.pipeDiscard, .lpmAllow false]
        env := { s.env.drawn 1 0 1 with schedule := rest } }

/-- R11: with no event queued and no turn scheduled, the block stands still exactly outside `DISPATCHED`,
while a WRITE(10) waits for payload, and when stuck. The spec says that a run ends there; that `step` then
answers the same state is the model's choice (log 3). -/
def Obligations.QuiescentStatesAreExactlyThoseOfTheSpec : Prop :=
  ∀ s : State, Inv s → s.env.schedule = [] → s.evq = [] →
    (step s = .next s ↔
      s.ctx.st ≠ .dispatched ∨ s.ctx.xfer.isWrite = true ∨ s.ctx.wedged = true)

/-- R141, R140, R139: `RxFill` appends one buffer and its notification while RX is armed and not halted; when
it is not (or the length is none a buffer can have) the turn passes without effect (log 3). -/
def Obligations.RxFillAppendsABufferOnlyWhileRxIsArmed : Prop :=
  ∀ (s : State) (bytes : Buffer) (rest : List Turn),
    configInRange s.cfg = true → s.env.schedule = .rxFill bytes :: rest →
    step s = .next
      (if s.rxq = [] ∧ s.ctx.wedged = false ∧
          ((s.ctx.st = .cbwWait ∧ s.ctx.phaseError = false) ∨
            (s.ctx.st = .dispatched ∧ s.ctx.xfer.isWrite = true)) ∧
          s.haltRx = false ∧ 1 ≤ bytes.length ∧ bytes.length ≤ s.cfg.bufCap then
        { s with rxq := [bytes], evq := s.evq ++ [.rxReady], env := { s.env with schedule := rest } }
      else { s with env := { s.env with schedule := rest } })

/-- R142, R139: `TxDrain` delivers the head buffer of `TX.q` to the host and posts its notification; while TX
is halted or `TX.q` is empty it is not enabled, delivers nothing, and the turn passes without effect, which is
the model's choice (log 3). -/
def Obligations.TxDrainDeliversTheHeadBuffer : Prop :=
  ∀ (s : State) (rest : List Turn), configInRange s.cfg = true → s.env.schedule = .txDrain :: rest →
    (∀ b q, s.txq = b :: q → s.haltTx = false →
      step s = .next { s with txq := q, hostRx := s.hostRx ++ [b], evq := s.evq ++ [.txDrained],
                              env := { s.env with schedule := rest } }) ∧
    (s.txq = [] ∨ s.haltTx = true → step s = .next { s with env := { s.env with schedule := rest } })

/-- R355, R40: the bus-event source, the control-request forwarder and the media detector post at any time;
the event goes to the end of the queue and nothing else changes. -/
def Obligations.PostedEventsJoinTheEndOfTheQueue : Prop :=
  ∀ (s : State) (e : Event) (rest : List Turn),
    configInRange s.cfg = true → s.env.schedule = .post e :: rest →
    e = .config ∨ e = .busReset ∨ e = .disconnect ∨ e = .suspend ∨ (∃ r, e = .ctrl r) ∨
      (∃ l p, e = .media l p) →
    step s = .next { s with evq := s.evq ++ [e], env := { s.env with schedule := rest } }

/-- R8, R40: an environment step leaves the context, the LUN records with their stores, the halts and the
outputs as they are, and appends at most one event. -/
def Obligations.EnvironmentStepsLeaveTheBlockUnchanged : Prop :=
  ∀ (s t : State) (turn : Turn) (rest : List Turn), s.env.schedule = turn :: rest →
    (∀ p, turn ≠ .worker p) → step s = .next t →
    t.ctx = s.ctx ∧ t.luns = s.luns ∧ t.haltRx = s.haltRx ∧ t.haltTx = s.haltTx ∧
      t.trace = s.trace ∧ t.cfg = s.cfg ∧ (t.evq = s.evq ∨ ∃ e, t.evq = s.evq ++ [e])

/-- R40, R72, R301: a step takes at most the head event and appends at most one event: events are consumed
in queue order, none skipped or held. -/
def Obligations.EventsLeaveTheQueueInOrder : Prop :=
  ∀ s t : State, step s = .next t →
    t.evq = s.evq ∨ (∃ e, s.evq = e :: t.evq) ∨ (∃ e, t.evq = s.evq ++ [e])

/-- R73, R75: what the host has received and what is committed for it only grows at its end, so the host gets
buffers in commit order; the one exception is a reset of the pipe, which empties `TX.q` and takes back nothing
delivered. -/
def Obligations.HostReceivesBuffersInCommitOrder : Prop :=
  ∀ s t : State, step s = .next t →
    (∃ new, t.hostRx ++ t.txq = s.hostRx ++ s.txq ++ new ∧ s.hostRx <+: t.hostRx) ∨
      (t.hostRx = s.hostRx ∧ t.txq = [] ∧ Action.pipeReset .tx ∈ t.trace.drop s.trace.length)

/-! ### The dispatcher's tests, in their order (R170, R356) -/

/-- R172, R177: every command on a LUN that does not exist fails; no sense is recorded anywhere. -/
def Obligations.CommandOnAbsentLunFails : Prop :=
  ∀ (i : Instr) (h : CbwHeader) (s : State), i.header = some h → s.luns[h.lun.toNat]? = none →
    exec i s = .next (s.withCommand h h.xferLen .failed .none)

/-- R173, R205, R225, R177: an unknown opcode and an unsupported VPD page fail at recognition, whatever the
length, the direction and the state of the unit. -/
def Obligations.UnrecognisedCommandsFailAtRecognition : Prop :=
  ∀ (h : CbwHeader) (x : Byte) (s : State) (u : Lun), s.luns[h.lun.toNat]? = some u →
    exec (.unknown h x) s = .next
      ((s.withCommand h h.xferLen .failed .none).withLun h.lun.toNat
        { u with lastSense := .invalidOpCode }) ∧
    exec (.inquiryVpdUnsupported h x) s = .next
      ((s.withCommand h h.xferLen .failed .none).withLun h.lun.toNat
        { u with lastSense := .invalidFieldInCbw })

/-- R174, R175, R177: a declared length or direction that is not the policy's fails with INVALID_PARAMETER,
whatever the state of the unit. -/
def Obligations.LengthOrDirectionMismatchFails : Prop :=
  ∀ (i : Instr) (h : CbwHeader) (s : State) (u : Lun) (p : Policy), i.header = some h →
    s.luns[h.lun.toNat]? = some u → commandPolicy s.cfg u i = some p → ¬ p.accepts h →
    exec i s = .next
      ((s.withCommand h h.xferLen .failed .none).withLun h.lun.toNat
        { u with lastSense := .invalidParameter })

/-- R176: a LUN-state-sensitive command on an absent medium or a stopped unit fails; a pending MEDIA_CHANGED
is not overwritten. -/
def Obligations.NotReadyUnitFailsTheCommand : Prop :=
  ∀ (i : Instr) (h : CbwHeader) (s : State) (u : Lun) (p : Policy), i.header = some h →
    s.luns[h.lun.toNat]? = some u → commandPolicy s.cfg u i = some p → p.accepts h → ¬ p.ready u →
    exec i s = .next
      ((s.withCommand h h.xferLen .failed .none).withLun h.lun.toNat
        { u with lastSense := if u.lastSense = .mediaChanged then .mediaChanged else .noMedia })

/-- R252: READ(10) and WRITE(10) beyond the last block fail with INVALID_LBA, after every other test; the sum
is not narrowed. -/
def Obligations.TransferBeyondTheLastBlockFails : Prop :=
  ∀ (i : Instr) (h : CbwHeader) (lba : Word) (count : BitVec 16) (s : State) (u : Lun) (p : Policy),
    i = .read10 h lba count ∨ i = .write10 h lba count → s.luns[h.lun.toNat]? = some u →
    commandPolicy s.cfg u i = some p → p.accepts h → p.ready u →
    u.blockCount < lba.toNat + count.toNat →
    exec i s = .next
      ((s.withCommand h h.xferLen .failed .none).withLun h.lun.toNat
        { u with lastSense := .invalidLba })

/-! ### The handlers -/

/-- R200, R201, R202, R204: the commands without an effect succeed with residue 0 and change no LUN record. -/
def Obligations.StatusOnlyCommandsSucceedWithoutEffect : Prop :=
  ∀ (i : Instr) (h : CbwHeader) (s : State) (u : Lun),
    i = .testUnitReady h ∨ i = .verify h ∨ i = .preventAllow h →
    s.luns[h.lun.toNat]? = some u → h.xferLen = 0 → u.mediaPresent = true → u.stopped = false →
    exec i s = .next (s.withCommand h 0 .ok .none)

/-- R203: START STOP UNIT writes `stopped` by its two bits and nothing else of the unit, on a started or a
stopped unit alike. -/
def Obligations.StartStopUnitWritesStopped : Prop :=
  ∀ (h : CbwHeader) (loej start : Bool) (s : State) (u : Lun), s.luns[h.lun.toNat]? = some u →
    h.xferLen = 0 → u.mediaPresent = true →
    exec (.startStopUnit h loej start) s = .next
      ((s.withCommand h 0 .ok .none).withLun h.lun.toNat
        { u with stopped :=
            if loej = true ∧ start = false then true
            else if loej = false ∧ start = true then false
            else !start })

/-- R220 to R224, R230, R180: each INQUIRY answers its configured block whole, on any unit, and leaves the
pending sense alone. -/
def Obligations.InquiryAnswersItsConfiguredBlock : Prop :=
  ∀ (i : Instr) (h : CbwHeader) (s : State) (u : Lun) (data : List Byte),
    (i = .inquiryStd h ∧ data = s.cfg.inqStd) ∨
      (i = .inquiryVpdSupportedPages h ∧ data = s.cfg.vpdSupported) ∨
      (i = .inquiryVpdSerialNumber h ∧ data = s.cfg.vpdSerial) ∨
      (i = .inquiryVpdDeviceId h ∧ data = s.cfg.vpdDevId) ∨
      (i = .inquiryVpdBlockLimits h ∧ data = s.cfg.vpdBlkLim) →
    s.luns[h.lun.toNat]? = some u → h.xferLen ≠ 0 → h.dir = .dirIn → h.xferLen.toNat = data.length →
    exec i s = .next (s.withCommand h h.xferLen .ok (.resp data 0 data.length))

/-- R226, R227, R229, R180: READ CAPACITY and READ FORMAT CAPACITY answer a response of their configured length;
in their layouts' lengths READ CAPACITY answers the address of the last block and the block length, READ FORMAT
CAPACITY the block count and the block length, all big-endian. For a configured length that is not the layout's
the spec states no bytes: the response is then some bytes of that length, the model's choice (log 11). MODE
SENSE(6) answers its four configured bytes. -/
def Obligations.CapacityAndModeResponses : Prop :=
  ∀ (h : CbwHeader) (s : State) (u : Lun), s.luns[h.lun.toNat]? = some u →
    1 ≤ u.blockCount → u.blockCount < 2 ^ 32 → 1 ≤ u.blockSize → u.blockSize < 2 ^ 24 →
    u.mediaPresent = true → u.stopped = false → h.xferLen ≠ 0 → h.dir = .dirIn →
    (h.xferLen.toNat = s.cfg.rdCapLen →
      ∃ bytes : List Byte, bytes.length = s.cfg.rdCapLen ∧
        exec (.readCapacity h) s = .next (s.withCommand h h.xferLen .ok (.resp bytes 0 bytes.length)) ∧
        (s.cfg.rdCapLen = 8 →
          ∃ c0 c1 c2 c3 z0 z1 z2 z3 : Byte, bytes = [c0, c1, c2, c3, z0, z1, z2, z3] ∧
            (unbe32 c0 c1 c2 c3).toNat = u.blockCount - 1 ∧
            (unbe32 z0 z1 z2 z3).toNat = u.blockSize)) ∧
    (h.xferLen.toNat = s.cfg.rdFmtLen →
      ∃ bytes : List Byte, bytes.length = s.cfg.rdFmtLen ∧
        exec (.readFormatCapacity h) s = .next
          (s.withCommand h h.xferLen .ok (.resp bytes 0 bytes.length)) ∧
        (s.cfg.rdFmtLen = 12 →
          ∃ c0 c1 c2 c3 z1 z2 z3 : Byte,
            bytes = [0x00, 0x00, 0x00, 0x08, c0, c1, c2, c3, 0x02, z1, z2, z3] ∧
            (unbe32 c0 c1 c2 c3).toNat = u.blockCount ∧
            (unbe32 0 z1 z2 z3).toNat = u.blockSize)) ∧
    (h.xferLen.toNat = 4 →
      exec (.modeSense6 h) s = .next (s.withCommand h h.xferLen .ok (.resp s.cfg.mode6Data.toList 0 4)))

/-- R228, R351, R352, R180: REQUEST SENSE answers a response of its configured length and clears the sense to
OK, on any unit. With the length 18 of the layout the response reports the triple of the pending sense, at the
position R351 lists it at; for another length the spec states no bytes, and the response is some bytes of that
length, the model's choice (log 11). -/
def Obligations.RequestSenseReportsAndClearsThePendingSense : Prop :=
  ∀ (h : CbwHeader) (s : State) (u : Lun) (i : Fin 16) (x : SenseTriple),
    s.luns[h.lun.toNat]? = some u →
    h.xferLen ≠ 0 → h.dir = .dirIn → h.xferLen.toNat = s.cfg.senseLen →
    (u.lastSense, i) ∈
      [(Sense.ok, (0 : Fin 16)), (.crcError, 1), (.invalidFieldInCbw, 2), (.noMedia, 3), (.writeFault, 4),
       (.readError, 5), (.addrNotFound, 6), (.invalidOpCode, 7), (.invalidLba, 8), (.invalidParameter, 9),
       (.cantEject, 10), (.mediaChanged, 11), (.deviceReset, 12), (.writeProtected, 13),
       (.initRequired, 14), (.savePageNotSupported, 15)] →
    x = s.cfg.senseTable.get i →
    ∃ bytes : List Byte, bytes.length = s.cfg.senseLen ∧
      exec (.requestSense h) s = .next
        ((s.withCommand h h.xferLen .ok (.resp bytes 0 bytes.length)).withLun h.lun.toNat
          { u with lastSense := .ok }) ∧
      (s.cfg.senseLen = 18 →
        bytes = [0x70, 0x00, x.key, 0x00, 0x00, 0x00, 0x00, 0x0A, 0x00, 0x00, 0x00, 0x00, x.asc, x.ascq,
                 0x00, 0x00, 0x00, 0x00])

/-- R250, R251, R62: READ(10) and WRITE(10) inside the store set up the data phase of their block range and
move nothing yet. -/
def Obligations.TransfersInsideTheStoreSetUpTheirDataPhase : Prop :=
  ∀ (h : CbwHeader) (lba : Word) (count : BitVec 16) (s : State) (u : Lun),
    s.luns[h.lun.toNat]? = some u → h.xferLen ≠ 0 → h.xferLen.toNat = count.toNat * u.blockSize →
    u.mediaPresent = true → u.stopped = false → lba.toNat + count.toNat ≤ u.blockCount →
    (h.dir = .dirIn → exec (.read10 h lba count) s = .next
      (s.withCommand h h.xferLen .ok (.rd (lba.toNat * u.blockSize) (count.toNat * u.blockSize)))) ∧
    (h.dir = .dirOut → exec (.write10 h lba count) s = .next
      (s.withCommand h h.xferLen .ok (.wr (lba.toNat * u.blockSize) (count.toNat * u.blockSize))))

/-- R170, R178, R358: every command ends its dispatch in a next state; a failed one has moved nothing, reports
its whole declared length, and has changed at most the sense of LUN records. -/
def Obligations.EveryCommandCompletesAndFailuresArePrecise : Prop :=
  ∀ (i : Instr) (h : CbwHeader) (s : State), i.header = some h →
    ∃ t, exec i s = .next t ∧ t.ctx.tag = h.tag ∧ t.ctx.xferLen = h.xferLen ∧ t.ctx.dir = h.dir ∧
      t.ctx.lunSel = h.lun ∧ t.ctx.residue = h.xferLen ∧ t.ctx.st = s.ctx.st ∧
      t.rxq = s.rxq ∧ t.txq = s.txq ∧ t.trace = s.trace ∧
      (t.ctx.status = .ok ∨
        (t.ctx.status = .failed ∧ t.ctx.xfer = .none ∧
          ∀ l : Nat, ∃ x : Sense, t.luns[l]? = (s.luns[l]?).map fun u : Lun => { u with lastSense := x }))

/-! ### The data phase -/

/-- R181: a device→host step commits the next `min(BUF_CAP, remaining)` bytes of the response, or of the store
of the selected LUN (byte by byte what the store reads as), and counts them; the data phase ends when nothing
remains. -/
def Obligations.DataStepCommitsTheNextChunk : Prop :=
  ∀ (s : State) (pos remaining n : Nat), s.ctx.st = .dispatched → s.nextAcquire = .buffer →
    s.commitAfter 1 = .ok → n = min s.cfg.bufCap remaining →
    (∀ bytes chunk, s.ctx.xfer = .resp bytes pos remaining → chunk = (bytes.drop pos).take n →
      exec .dataStepTx s = .next
        { s with
          ctx := { s.ctx with
            residue := s.ctx.residue - BitVec.ofNat 32 n
            xfer := if remaining - n = 0 then .none else .resp bytes (pos + n) (remaining - n) }
          txq := s.txq ++ [chunk]
          trace := s.trace ++ [.pipeCommit chunk]
          env := s.env.drawn 1 1 2 }) ∧
    (∀ u chunk, s.ctx.xfer = .rd pos remaining → s.luns[s.ctx.lunSel.toNat]? = some u →
      pos + n ≤ u.blockSize * u.blockCount → chunk.length = n →
      (∀ k, k < n → chunk[k]? = s.storeByte s.ctx.lunSel.toNat (pos + k)) →
      exec .dataStepTx s = .next
        { s with
          ctx := { s.ctx with
            residue := s.ctx.residue - BitVec.ofNat 32 n
            xfer := if remaining - n = 0 then .none else .rd (pos + n) (remaining - n) }
          txq := s.txq ++ [chunk]
          trace := s.trace ++ [.pipeCommit chunk]
          env := s.env.drawn 1 1 2 })

/-- R253: a payload buffer is taken whole into the store at the position of the WRITE(10), counted, and
discarded, whichever of the two rows of the table names the event. -/
def Obligations.PayloadBufferIsStoredAndCounted : Prop :=
  ∀ (i : Instr) (s : State) (pos remaining : Nat) (b : Buffer) (q : List Buffer) (u : Lun),
    i = .evRxReadyData ∨ i = .evRxReady → s.ctx.st = .dispatched → s.ctx.wedged = false →
    s.ctx.xfer = .wr pos remaining → s.rxq = b :: q → s.luns[s.ctx.lunSel.toNat]? = some u →
    b.length ≤ remaining → pos + b.length ≤ u.blockSize * u.blockCount → s.nextAcquire = .buffer →
    exec i s = .next
      (({ s with
          ctx := { s.ctx with
            residue := s.ctx.residue - BitVec.ofNat 32 b.length
            xfer := if remaining - b.length = 0 then .none
                    else .wr (pos + b.length) (remaining - b.length) }
          rxq := q
          trace := s.trace ++ [.memWrite s.ctx.lunSel.toNat pos b, .pipeDiscard]
          env := s.env.drawn 1 0 1 } : State).withLun s.ctx.lunSel.toNat
        { u with store := u.store.writeRange pos b })

/-- R183, R181, R253: a pipe failure in a data phase ends it with status 1 and CRC_ERROR on the selected LUN,
the residue frozen; a payload buffer whose acquire failed is lost. -/
def Obligations.PipeFailureInADataPhaseFailsTheCommand : Prop :=
  ∀ (s : State) (u : Lun), s.ctx.st = .dispatched → s.luns[s.ctx.lunSel.toNat]? = some u →
    ((∃ bytes pos n, s.ctx.xfer = .resp bytes pos n) ∨ (∃ pos n, s.ctx.xfer = .rd pos n) →
      s.nextAcquire ≠ .buffer →
      exec .dataStepTx s = .next
        (({ s with ctx := { s.ctx with status := .failed, xfer := .none }
                   env := s.env.drawn 1 0 1 } : State).withLun s.ctx.lunSel.toNat
          { u with lastSense := .crcError })) ∧
    ((∃ bytes pos n, s.ctx.xfer = .resp bytes pos n) ∨
        (∃ pos n, s.ctx.xfer = .rd pos n ∧ pos + min s.cfg.bufCap n ≤ u.blockSize * u.blockCount) →
      s.nextAcquire = .buffer → s.commitAfter 1 = .fail →
      exec .dataStepTx s = .next
        (({ s with ctx := { s.ctx with status := .failed, xfer := .none }
                   env := s.env.drawn 1 1 2 } : State).withLun s.ctx.lunSel.toNat
          { u with lastSense := .crcError })) ∧
    (∀ i, i = .evRxReadyData ∨ i = .evRxReady → (∃ pos n, s.ctx.xfer = .wr pos n) →
      s.ctx.wedged = false → s.rxq ≠ [] → s.nextAcquire ≠ .buffer →
      exec i s = .next
        (({ s with ctx := { s.ctx with status := .failed, xfer := .none }
                   rxq := s.rxq.tail
                   env := s.env.drawn 1 0 1 } : State).withLun s.ctx.lunSel.toNat
          { u with lastSense := .crcError }))

/-! ### Reception -/

/-- R151, R152, R79: EV_RX_READY with a buffer that decodes to a command accepts it: the CBW is copied, the
block is busy and dispatched, and the command's dispatch has run. -/
def Obligations.ReceivedCommandIsAcceptedAndDispatched : Prop :=
  ∀ (s : State) (b : Buffer) (q : List Buffer) (i : Instr), s.ctx.st = .cbwWait →
    s.ctx.phaseError = false → s.ctx.wedged = false → s.rxq = b :: q → s.nextAcquire = .buffer →
    decodeCbw s.cfg b = .ok i →
    ∃ t, exec .evRxReady s = .next t ∧ t.ctx.cbw = b ∧ t.ctx.busy = true ∧ t.ctx.st = .dispatched ∧
      t.rxq = q ∧ t.trace = s.trace ++ [.pipeDiscard, .lpmAllow false] ∧
      exec i
        { s with
          ctx := { s.ctx with cbw := b, busy := true, st := .dispatched }
          rxq := q
          trace := s.trace ++ [.pipeDiscard, .lpmAllow false]
          env := s.env.drawn 1 0 1 } = .next t

/-- R150 cases 1, 2, 5 and R151 (U3): a stale notification changes nothing, under either of its two rows of the
opcode table, and a failed acquire of an
announced buffer in `CBW_WAIT` loses that buffer and changes nothing else. -/
def Obligations.StaleAndLostNotificationsChangeNothingElse : Prop :=
  ∀ s : State,
    (s.rxq = [] ∨ s.ctx.wedged = true ∨ s.ctx.st = .inactive ∨ s.ctx.st = .status ∨
        (s.ctx.st = .cbwWait ∧ s.ctx.phaseError = true) ∨
        (s.ctx.st = .dispatched ∧ s.ctx.xfer.isWrite = false) →
      exec .evRxReady s = .next s) ∧
    (s.rxq ≠ [] → s.ctx.wedged = false → s.ctx.st = .cbwWait → s.ctx.phaseError = false →
      s.nextAcquire ≠ .buffer →
      exec .evRxReady s = .next { s with rxq := s.rxq.tail, env := s.env.drawn 1 0 1 }) ∧
    (s.rxq = [] ∨ s.ctx.wedged = true → exec .evRxReadyData s = .next s)

/-- R154, R93, R359: a buffer that is no valid CBW is a phase error: status 2, and a CSW with some tag,
residue 0 and status 2 queued; no LUN record changes and the block is not busy. -/
def Obligations.InvalidCbwEntersThePhaseError : Prop :=
  ∀ (s : State) (b : Buffer) (q : List Buffer), s.ctx.st = .cbwWait → s.ctx.phaseError = false →
    s.ctx.wedged = false → s.rxq = b :: q → s.nextAcquire = .buffer →
    ¬ (b.length = 31 ∧ b.take 4 = [0x55, 0x53, 0x42, 0x43]) →
    s.acquireAfter 1 2 = .buffer → s.commitAfter 3 = .ok →
    ∃ (t0 t1 t2 t3 : Byte) (csw : Buffer),
      csw = [0x55, 0x53, 0x42, 0x53, t0, t1, t2, t3, 0x00, 0x00, 0x00, 0x00, 0x02] ∧
      exec .evRxReady s = .next
        { s with
          ctx := { s.ctx with phaseError := true, status := .phaseError, st := .status }
          rxq := q
          txq := s.txq ++ [csw]
          trace := s.trace ++ [.pipeDiscard, .pipeCommit csw]
          env := s.env.drawn 2 1 4 }

/-- R285, R154, R283: a CSW that cannot be queued leaves the block stuck, at STATUS entry (after the stall of
RX, if it is due) and at the phase-error entry alike. -/
def Obligations.CswThatCannotBeQueuedLeavesTheBlockStuck : Prop :=
  ∀ s : State, s.ctx.wedged = false →
    (s.ctx.st = .dispatched → s.ctx.xfer = .none →
      s.nextAcquire ≠ .buffer ∨ (s.nextAcquire = .buffer ∧ s.commitAfter 1 = .fail) →
      exec .dispatchDone s = .next
        { s with
          ctx := { s.ctx with wedged := true }
          haltRx := s.haltRx || (s.ctx.dir = .dirOut && s.ctx.residue ≠ 0)
          trace := s.trace ++ (if s.ctx.dir = .dirOut ∧ s.ctx.residue ≠ 0 then [.stall .rx] else [])
          env := if s.nextAcquire = .buffer then s.env.drawn 1 1 2 else s.env.drawn 1 0 1 }) ∧
    (∀ b q, s.ctx.st = .cbwWait → s.ctx.phaseError = false → s.rxq = b :: q → s.nextAcquire = .buffer →
      cbwValid b = false →
      s.acquireAfter 1 2 ≠ .buffer ∨ (s.acquireAfter 1 2 = .buffer ∧ s.commitAfter 3 = .fail) →
      exec .evRxReady s = .next
        { s with
          ctx := { s.ctx with phaseError := true, status := .phaseError, wedged := true }
          rxq := q
          trace := s.trace ++ [.pipeDiscard]
          env := if s.acquireAfter 1 2 = .buffer then s.env.drawn 2 1 4 else s.env.drawn 2 0 3 })

/-- The refusals the spec asks for: an accepted CBW with `cbLength` 0 or above 16 (R104), payload beyond what
remains (R253), a request of R336, media of a LUN that does not exist (R309), a configuration outside the
ranges of R6. -/
def Obligations.RefusalsAreThoseTheSpecAsksFor : Prop :=
  ∀ s : State,
    (∀ b q, s.ctx.st = .cbwWait → s.ctx.phaseError = false → s.ctx.wedged = false → s.rxq = b :: q →
      s.nextAcquire = .buffer → cbwValid b = true →
      (byteAt b 14).toNat = 0 ∨ 16 < (byteAt b 14).toNat →
      exec .evRxReady s = .refused .cbLengthOutOfRange) ∧
    (∀ i pos remaining b q, i = .evRxReadyData ∨ i = .evRxReady → s.ctx.st = .dispatched →
      s.ctx.wedged = false → s.ctx.xfer = .wr pos remaining → s.rxq = b :: q →
      s.nextAcquire = .buffer → remaining < b.length → exec i s = .refused .payloadOverrun) ∧
    (∀ r, (∃ ep, r = .setFeatureHalt ep) ∨ r = .getStatus ∨ r = .setInterface ∨ r = .getInterface →
      exec (.evCtrl r) s = .refused .controlRequestWithoutRule) ∧
    (∀ l p, s.luns.length ≤ l → exec (.evMedia l p) s = .refused .mediaLunOutOfRange) ∧
    (¬ (1 ≤ s.cfg.luns.length ∧ s.cfg.luns.length ≤ 16 ∧ 31 ≤ s.cfg.bufCap ∧
        ∀ l ∈ s.cfg.luns, 1 ≤ l.blockSize ∧ l.blockSize < 2 ^ 24 ∧ 1 ≤ l.blockCount ∧
          l.blockCount < 2 ^ 32) →
      step s = .refused .configOutOfRange)

/-! ### The status phase -/

/-- R280 to R284, R94: DispatchDone queues the CSW with the command's tag, residue and status, ends the
command, and stalls RX before it or TX after it when the residue is not 0. -/
def Obligations.DispatchDoneQueuesTheCsw : Prop :=
  ∀ (s : State) (csw : Buffer), s.ctx.st = .dispatched → s.ctx.xfer = .none → s.ctx.wedged = false →
    s.nextAcquire = .buffer → s.commitAfter 1 = .ok →
    csw = [0x55, 0x53, 0x42, 0x53, s.ctx.tag.t0, s.ctx.tag.t1, s.ctx.tag.t2, s.ctx.tag.t3] ++
      le32 s.ctx.residue ++
      [match s.ctx.status with | .ok => (0x00 : Byte) | .failed => 0x01 | .phaseError => 0x02] →
    exec .dispatchDone s = .next
      { s with
        ctx := { s.ctx with busy := false, residue := 0, st := .status }
        haltRx := s.haltRx || (s.ctx.dir = .dirOut && s.ctx.residue ≠ 0)
        haltTx := s.haltTx || (s.ctx.dir = .dirIn && s.ctx.residue ≠ 0)
        txq := s.txq ++ [csw]
        trace := s.trace ++ (if s.ctx.dir = .dirOut ∧ s.ctx.residue ≠ 0 then [.stall .rx] else []) ++
          [.pipeCommit csw, .lpmAllow true] ++
          (if s.ctx.dir = .dirIn ∧ s.ctx.residue ≠ 0 then [.stall .tx] else [])
        env := s.env.drawn 1 1 2 }

/-- R306: a drained notification ends the cycle in `STATUS`, with both stalls first in a phase error, and does
nothing in any other state or when stuck. -/
def Obligations.TxDrainedClosesTheCycle : Prop :=
  ∀ s : State,
    exec .evTxDrained s = .next
      (if s.ctx.st = .status ∧ s.ctx.wedged = false then
        (if s.ctx.phaseError = true then
          { s with ctx := { s.ctx with st := .cbwWait }, haltRx := true, haltTx := true,
                   trace := s.trace ++ [.stall .rx, .stall .tx] }
         else { s with ctx := { s.ctx with st := .cbwWait } })
       else s)

/-! ### Bus events and media -/

/-- R302, R184: EV_CONFIG in any state: both pipes reset, every unit started, the command cancelled, both
stalls in a phase error (which it does not end), then `CBW_WAIT`. That both halts are set in a phase error is the
model's choice between R302 and R33 (log 21). -/
def Obligations.ConfigurationFlushesAndRearms : Prop :=
  ∀ s : State,
    exec .evConfig s = .next
      { s with
        ctx := { s.ctx with busy := false, xfer := .none, residue := 0, wedged := false, st := .cbwWait }
        haltRx := s.haltRx || s.ctx.phaseError
        haltTx := s.haltTx || s.ctx.phaseError
        luns := s.luns.map fun u => { u with stopped := false }
        rxq := []
        txq := []
        trace := s.trace ++ [.pipeReset .rx, .pipeReset .tx] ++
          (if s.ctx.busy = true then [.lpmAllow true] else []) ++
          (if s.ctx.phaseError = true then [.stall .rx, .stall .tx] else []) }

/-- R303, R304, R184: bus reset and disconnect in any state: both pipes reset, the phase error and both halts
cleared, the command cancelled, then `INACTIVE`; no LUN record changes. -/
def Obligations.BusResetAndDisconnectFlushToInactive : Prop :=
  ∀ (i : Instr) (s : State), i = .evBusReset ∨ i = .evDisconnect →
    exec i s = .next
      { s with
        ctx := { s.ctx with phaseError := false, busy := false, xfer := .none, residue := 0,
                            wedged := false, st := .inactive }
        haltRx := false
        haltTx := false
        rxq := []
        txq := []
        trace := s.trace ++ [.pipeReset .rx, .pipeReset .tx] ++
          (if s.ctx.busy = true then [.lpmAllow true] else []) }

/-- R305: suspend changes no state. -/
def Obligations.SuspendChangesNothing : Prop :=
  ∀ s : State, exec .evSuspend s = .next s

/-- R309: a media event writes presence and the pending MEDIA_CHANGED of its LUN, in any state. -/
def Obligations.MediaEventWritesPresenceAndSense : Prop :=
  ∀ (l : Nat) (present : Bool) (s : State) (u : Lun), s.luns[l]? = some u →
    exec (.evMedia l present) s = .next
      (s.withLun l { u with mediaPresent := present, lastSense := .mediaChanged })

/-! ### Control requests -/

/-- R331: CLEAR_FEATURE(ENDPOINT_HALT) in any state: the halt is cleared unless in a phase error, the sequence
numbering reset on SuperSpeed either way, the request acknowledged. -/
def Obligations.ClearFeatureReleasesTheHaltOutsideAPhaseError : Prop :=
  ∀ (ep : Endpoint) (s : State),
    exec (.clearFeatureEndpointHalt ep) s = .next
      { s with
        haltRx := if ep = .rx ∧ s.ctx.phaseError = false then false else s.haltRx
        haltTx := if ep = .tx ∧ s.ctx.phaseError = false then false else s.haltTx
        trace := s.trace ++ (if s.ctx.phaseError = true then [] else [.unstall ep]) ++
          (if s.cfg.superspeed = true then [.seqReset ep] else []) ++ [.ctrlAck] }

/-- R333: GET_MAX_LUN answers one byte, the number of LUNs less one, and changes nothing. -/
def Obligations.GetMaxLunAnswersTheNumberOfLunsLessOne : Prop :=
  ∀ s : State, 1 ≤ s.luns.length → s.luns.length ≤ 16 →
    ∃ b : Byte, b.toNat = s.luns.length - 1 ∧
      exec .getMaxLun s = .next { s with trace := s.trace ++ [.ctrlReply [b]] }

/-- R334, R184: BOT_RESET is only acknowledged in `INACTIVE`; elsewhere it resets both pipes, ends the phase
error, cancels the command and returns to `CBW_WAIT`, the halts and the LUN records as they are. -/
def Obligations.BotResetFlushesAndKeepsHaltsAndUnits : Prop :=
  ∀ s : State,
    exec .botReset s = .next
      (if s.ctx.st = .inactive then { s with trace := s.trace ++ [.ctrlAck] }
       else
        { s with
          ctx := { s.ctx with phaseError := false, busy := false, xfer := .none, residue := 0,
                              wedged := false, st := .cbwWait }
          rxq := []
          txq := []
          trace := s.trace ++ [.pipeReset .rx, .pipeReset .tx] ++
            (if s.ctx.busy = true then [.lpmAllow true] else []) ++ [.ctrlAck] })

/-- R330: a forwarded control request is the request itself: each of the three completes with the effect of
its own row. -/
def Obligations.ForwardedRequestsHaveTheEffectOfTheirRow : Prop :=
  ∀ s : State,
    (∀ ep, ∃ t, exec (.evCtrl (.clearHalt ep)) s = .next t ∧
      exec (.clearFeatureEndpointHalt ep) s = .next t) ∧
    (∃ t, exec (.evCtrl .getMaxLun) s = .next t ∧ exec .getMaxLun s = .next t) ∧
    (∃ t, exec (.evCtrl .botReset) s = .next t ∧ exec .botReset s = .next t)

/-! ### Invariants and whole-machine rules -/

/-- R45, R42, R401: the values the spec gives for power-on, in every configuration, the launch contents of the
stores among them; the CBW registers it leaves unspecified are not named here. The form of the launch contents, a
list of cells of which the first for an address counts, is the model's choice (log 6). -/
def Obligations.PowerOnValues : Prop :=
  State.reset = State.powerOn Config.default ∧
  ∀ (c : Config) (s : State), s = State.powerOn c →
    s.cfg = c ∧ s.ctx.st = .inactive ∧ s.ctx.phaseError = false ∧ s.ctx.busy = false ∧
      s.ctx.wedged = false ∧ s.ctx.xfer = .none ∧ s.ctx.residue = 0 ∧ s.haltRx = false ∧
      s.haltTx = false ∧ s.lpmAllowed = true ∧ s.evq = [] ∧ s.rxq = [] ∧ s.txq = [] ∧
      s.luns.length = c.luns.length ∧
      ∀ (l : Nat) (u : Lun) (p : LunConfig), s.luns[l]? = some u → c.luns[l]? = some p →
        u.blockSize = p.blockSize ∧ u.blockCount = p.blockCount ∧
          u.mediaPresent = p.mediaPresentInit ∧ u.stopped = false ∧ u.lastSense = .deviceReset ∧
          ∀ (a : Nat) (b : Byte), a < p.blockSize * p.blockCount →
            p.launch.find? (fun x => x.1 = a) = some (a, b) → s.storeByte l a = some b

/-- R44, R45, R6: the state after power-on in a configuration R6 admits satisfies the invariant. -/
def Obligations.PowerOnSatisfiesTheInvariant : Prop :=
  Inv State.reset ∧ ∀ c : Config, configInRange c = true → Inv (State.powerOn c)

/-- R44, R140, R186, R300: every step keeps the invariant, from every state that has it. -/
def Obligations.EveryStepKeepsTheInvariant : Prop :=
  ∀ s t : State, Inv s → step s = .next t → Inv t

/-- R61, R186: from a state with the invariant no step makes an access outside a store, and the only refusals
are the four the spec asks for. -/
def Obligations.NoFaultFromAStateWithTheInvariant : Prop :=
  ∀ s : State, Inv s →
    (∃ t, step s = .next t) ∨ step s = .refused .cbLengthOutOfRange ∨
      step s = .refused .payloadOverrun ∨ step s = .refused .controlRequestWithoutRule ∨
      step s = .refused .mediaLunOutOfRange

/-- R35 to R38: the geometry is never written; presence only by a media event; `stopped` only by START STOP
UNIT and EV_CONFIG; the sense only by a media event, the failure of a command or of a data phase on that LUN (the
latter leaves CRC_ERROR), and REQUEST SENSE. -/
def Obligations.LunFieldsHaveOnlyTheirWriters : Prop :=
  ∀ (i : Instr) (s t : State), exec i s = .next t →
    t.luns.length = s.luns.length ∧
    ∀ (l : Nat) (u v : Lun), s.luns[l]? = some u → t.luns[l]? = some v →
      v.blockSize = u.blockSize ∧ v.blockCount = u.blockCount ∧
      (v.mediaPresent ≠ u.mediaPresent → ∃ p, i = .evMedia l p) ∧
      (v.stopped ≠ u.stopped →
        i = .evConfig ∨
        ∃ h loej start, h.lun.toNat = l ∧
          (i = .startStopUnit h loej start ∨
            (i = .evRxReady ∧ ∃ b, s.rxq.head? = some b ∧
              decodeCbw s.cfg b = .ok (.startStopUnit h loej start)))) ∧
      (v.lastSense ≠ u.lastSense →
        (∃ p, i = .evMedia l p) ∨
        (t.ctx.lunSel.toNat = l ∧
          ((t.ctx.status = .failed ∧
              ((∃ h, i.header = some h ∧ h.lun.toNat = l) ∨
                (i = .evRxReady ∧ ∃ b j h, s.rxq.head? = some b ∧ decodeCbw s.cfg b = .ok j ∧
                  j.header = some h ∧ h.lun.toNat = l) ∨
                ((i = .dataStepTx ∨ i = .evRxReady ∨ i = .evRxReadyData) ∧ s.ctx.xfer ≠ .none ∧
                  v.lastSense = .crcError))) ∨
            (v.lastSense = .ok ∧ ∃ h,
              (i = .requestSense h ∨
                (i = .evRxReady ∧ ∃ b, s.rxq.head? = some b ∧
                  decodeCbw s.cfg b = .ok (.requestSense h)))))))

/-- R42, R61, R253, the frame of memory for every instruction: outside the bytes a WRITE(10) payload buffer is
stored to, every byte of every store reads as before. -/
def Obligations.StoresChangeOnlyWhereTheStoredBytesGo : Prop :=
  ∀ (i : Instr) (s t : State), (∀ u ∈ s.luns, u.store.wf) → exec i s = .next t →
    ∀ l a : Nat,
      (∀ l' pos n, storedRange i s = some (l', pos, n) → l ≠ l' ∨ a < pos ∨ pos + n ≤ a) →
      t.storeByte l a = s.storeByte l a

/-- R24, R44 (I-c), R155, R308: a phase error begins only with an invalid buffer consumed in `CBW_WAIT` and
ends only by BOT_RESET, bus reset or disconnect; while it lasts no CBW is accepted. -/
def Obligations.PhaseErrorHasOnlyItsEntryAndItsExits : Prop :=
  ∀ (i : Instr) (s t : State), exec i s = .next t →
    (s.ctx.phaseError = false → t.ctx.phaseError = true →
      i = .evRxReady ∧ s.ctx.st = .cbwWait ∧ t.ctx.status = .phaseError ∧
        ∃ b, s.rxq.head? = some b ∧ cbwValid b = false) ∧
    (s.ctx.phaseError = true → t.ctx.phaseError = false →
      i = .botReset ∨ i = .evCtrl .botReset ∨ i = .evBusReset ∨ i = .evDisconnect) ∧
    (s.ctx.phaseError = true → t.ctx.cbw = s.ctx.cbw)

/-- R33, R302: a halt bit is set only with a stall, by STATUS entry or, in a phase error, by EV_TX_DRAINED or
EV_CONFIG, and cleared only by CLEAR_FEATURE on its endpoint outside a phase error, bus reset and disconnect. That
EV_CONFIG sets one is the model's choice between R302 and R33, which says that it leaves them (log 21). -/
def Obligations.HaltBitsHaveOnlyTheirWriters : Prop :=
  ∀ (i : Instr) (s t : State) (ep : Endpoint), exec i s = .next t →
    (s.halted ep = false → t.halted ep = true →
      Action.stall ep ∈ t.trace.drop s.trace.length ∧
        (i = .dispatchDone ∨
          ((i = .evTxDrained ∨ i = .evConfig) ∧ s.ctx.phaseError = true))) ∧
    (s.halted ep = true → t.halted ep = false →
      i = .evBusReset ∨ i = .evDisconnect ∨
        ((i = .clearFeatureEndpointHalt ep ∨ i = .evCtrl (.clearHalt ep)) ∧ s.ctx.phaseError = false))

/-- R307, R300: the only rules that write `ctx.st`, and where each leads. -/
def Obligations.TransportStateMovesOnlyAlongTheTable : Prop :=
  ∀ (i : Instr) (s t : State), exec i s = .next t → t.ctx.st ≠ s.ctx.st →
    (i = .evConfig ∧ t.ctx.st = .cbwWait) ∨
    ((i = .evBusReset ∨ i = .evDisconnect) ∧ t.ctx.st = .inactive) ∨
    ((i = .botReset ∨ i = .evCtrl .botReset) ∧ s.ctx.st ≠ .inactive ∧ t.ctx.st = .cbwWait) ∨
    (i = .evRxReady ∧ s.ctx.st = .cbwWait ∧
      (t.ctx.st = .dispatched ∨ (t.ctx.st = .status ∧ t.ctx.phaseError = true))) ∨
    (i = .dispatchDone ∧ s.ctx.st = .dispatched ∧ t.ctx.st = .status) ∨
    (i = .evTxDrained ∧ s.ctx.st = .status ∧ t.ctx.st = .cbwWait)

/-- R34: whenever busy changes, the link-power action with its negation is emitted in the same step. -/
def Obligations.BusyChangesAreAnnouncedToLinkPower : Prop :=
  ∀ (i : Instr) (s t : State), exec i s = .next t → t.ctx.busy ≠ s.ctx.busy →
    Action.lpmAllow (!t.ctx.busy) ∈ t.trace.drop s.trace.length

/-- R206, R281, R27: the tag is written only by a command's dispatch, and the CSW of STATUS entry carries it
in its bytes 4 to 7, whatever the command's outcome. -/
def Obligations.CswCarriesTheTagOfItsCommand : Prop :=
  ∀ (i : Instr) (s t : State), exec i s = .next t →
    (∀ h, i.header = some h → t.ctx.tag = h.tag) ∧
    (i.header = none → i ≠ .evRxReady → t.ctx.tag = s.ctx.tag) ∧
    (i = .dispatchDone → t.ctx.st ≠ s.ctx.st →
      ∃ csw, t.txq = s.txq ++ [csw] ∧ csw.length = 13 ∧
        (csw.drop 4).take 4 = [s.ctx.tag.t0, s.ctx.tag.t1, s.ctx.tag.t2, s.ctx.tag.t3])

/-! ### Headlines: whole data phases -/

/-- R180, R181, R230: a response of any length reaches TX whole, in order, in `ceil(length / BUF_CAP)` buffers
of which only the last may be short; the residue becomes 0 and the data phase ends. -/
def Obligations.ResponseReachesTxWholeInFullBuffers : Prop :=
  ∀ (s : State) (bytes : List Byte) (k : Nat) (as : List AcquireDraw) (cs : List CommitDraw),
    s.ctx.st = .dispatched → 1 ≤ s.cfg.bufCap → bytes ≠ [] →
    s.ctx.xfer = .resp bytes 0 bytes.length → s.ctx.residue.toNat = bytes.length →
    k = (bytes.length + s.cfg.bufCap - 1) / s.cfg.bufCap →
    s.env.acquires = List.replicate k .buffer ++ as → s.env.commits = List.replicate k .ok ++ cs →
    ∃ (t : State) (chunks : List Buffer),
      runDataSteps k s = .next t ∧ t.txq = s.txq ++ chunks ∧ chunks.flatten = bytes ∧
      chunks.length = k ∧ (∀ b ∈ chunks, 1 ≤ b.length ∧ b.length ≤ s.cfg.bufCap) ∧
      (∀ b ∈ chunks.dropLast, b.length = s.cfg.bufCap) ∧
      t.ctx = { s.ctx with xfer := .none, residue := 0 } ∧ t.luns = s.luns ∧
      t.haltRx = s.haltRx ∧ t.haltTx = s.haltTx ∧ t.rxq = s.rxq

/-- R250, R181, R62, R280, R281 (Scenario B): a READ(10) inside the store of a ready unit delivers exactly the
bytes its block range of the store reads as, in order, then a CSW with its tag, residue 0 and status 0, and
stalls nothing. -/
def Obligations.ReadDeliversTheBlocksAndASuccessfulCsw : Prop :=
  ∀ (s : State) (h : CbwHeader) (lba : Word) (count : BitVec 16) (u : Lun) (k : Nat)
    (as : List AcquireDraw) (cs : List CommitDraw),
    s.ctx.st = .dispatched → s.ctx.wedged = false → 1 ≤ s.cfg.bufCap →
    s.luns[h.lun.toNat]? = some u → h.dir = .dirIn → h.xferLen ≠ 0 →
    h.xferLen.toNat = count.toNat * u.blockSize → u.mediaPresent = true → u.stopped = false →
    lba.toNat + count.toNat ≤ u.blockCount →
    k = (count.toNat * u.blockSize + s.cfg.bufCap - 1) / s.cfg.bufCap →
    s.env.acquires = List.replicate (k + 1) .buffer ++ as →
    s.env.commits = List.replicate (k + 1) .ok ++ cs →
    ∃ (t1 t2 t3 : State) (chunks : List Buffer),
      exec (.read10 h lba count) s = .next t1 ∧ runDataSteps k t1 = .next t2 ∧
      exec .dispatchDone t2 = .next t3 ∧
      chunks.flatten.length = count.toNat * u.blockSize ∧
      (∀ k, k < count.toNat * u.blockSize →
        chunks.flatten[k]? = s.storeByte h.lun.toNat (lba.toNat * u.blockSize + k)) ∧
      chunks.length = k ∧ (∀ b ∈ chunks, 1 ≤ b.length ∧ b.length ≤ s.cfg.bufCap) ∧
      t3.txq = s.txq ++ chunks ++
        [[0x55, 0x53, 0x42, 0x53, h.tag.t0, h.tag.t1, h.tag.t2, h.tag.t3,
          0x00, 0x00, 0x00, 0x00, 0x00]] ∧
      t3.ctx.st = .status ∧ t3.ctx.busy = false ∧ t3.luns = s.luns ∧
      t3.haltRx = s.haltRx ∧ t3.haltTx = s.haltTx

/-- R251, R253, R68, R280, R281: a WRITE(10) inside the store of a ready unit stores its payload at its block
range, however the host splits it into buffers, and nothing else; then comes a CSW with its tag, residue 0
and status 0. -/
def Obligations.WriteStoresThePayloadHoweverItIsSplit : Prop :=
  ∀ (s : State) (h : CbwHeader) (lba : Word) (count : BitVec 16) (u : Lun) (bufs : List Buffer)
    (as : List AcquireDraw) (cs : List CommitDraw),
    s.ctx.st = .dispatched → s.ctx.wedged = false → (∀ v ∈ s.luns, v.store.wf) →
    s.luns[h.lun.toNat]? = some u → h.dir = .dirOut → h.xferLen ≠ 0 →
    h.xferLen.toNat = count.toNat * u.blockSize → u.mediaPresent = true → u.stopped = false →
    lba.toNat + count.toNat ≤ u.blockCount →
    (∀ b ∈ bufs, 1 ≤ b.length) → bufs.flatten.length = count.toNat * u.blockSize →
    s.env.acquires = List.replicate (bufs.length + 1) .buffer ++ as → s.env.commits = .ok :: cs →
    ∃ t1 t2 t3 : State,
      exec (.write10 h lba count) s = .next t1 ∧ runPayload bufs t1 = .next t2 ∧
      exec .dispatchDone t2 = .next t3 ∧
      (∀ l a, t3.storeByte l a =
        if l = h.lun.toNat ∧ lba.toNat * u.blockSize ≤ a ∧
            a < lba.toNat * u.blockSize + bufs.flatten.length then
          bufs.flatten[a - lba.toNat * u.blockSize]?
        else s.storeByte l a) ∧
      t3.txq = s.txq ++
        [[0x55, 0x53, 0x42, 0x53, h.tag.t0, h.tag.t1, h.tag.t2, h.tag.t3,
          0x00, 0x00, 0x00, 0x00, 0x00]] ∧
      t3.ctx.st = .status ∧ t3.ctx.busy = false ∧ t3.haltRx = s.haltRx ∧ t3.haltTx = s.haltTx
end

