-- ==== Sys2Proof/Laws/Memory.lean ====
section
/-! SUPPORT. The laws of the backing store: a read after a write, a write leaves every other byte alone,
and every memory operation keeps the canonical form. -/

namespace Sys2Proof.Machine

/-- An address below every listed one reads as unlisted. -/
theorem Memory.byte_below (m : Memory) (a : Nat) (h : ∀ x ∈ m, a < x.1) :
    m.byte a = Memory.unlisted := by
  induction m with
  | nil => rfl
  | cons x m ih =>
    obtain ⟨k, v⟩ := x
    have hk : a < k := h (k, v) (by simp)
    have : ¬ k = a := by omega
    simp only [Memory.byte, this, if_false]
    exact ih fun y hy => h y (List.mem_cons_of_mem _ hy)

/-- Every cell `put` leaves is the written one or an old one. -/
theorem Memory.mem_put (m : Memory) (a : Nat) (b : Byte) (x : Host.Cell) (h : x ∈ m.put a b) :
    x = (a, b) ∨ x ∈ m := by
  induction m with
  | nil =>
    simp only [Memory.put] at h
    split at h <;> simp_all
  | cons y m ih =>
    obtain ⟨k, v⟩ := y
    simp only [Memory.put] at h
    split at h
    · split at h <;> simp_all
    · split at h
      · split at h
        · exact .inr (List.mem_cons_of_mem _ h)
        · rcases List.mem_cons.mp h with h | h
          · exact .inl (by simp_all)
          · exact .inr (List.mem_cons_of_mem _ h)
      · rcases List.mem_cons.mp h with h | h
        · exact .inr (by simp [h])
        · rcases ih h with h | h
          · exact .inl h
          · exact .inr (List.mem_cons_of_mem _ h)

/-- A written byte is never listed at the value an unlisted address reads as. -/
theorem Memory.put_listed (m : Memory) (a : Nat) (b : Byte) (h : ∀ x ∈ m, x.2 ≠ Memory.unlisted) :
    ∀ x ∈ m.put a b, x.2 ≠ Memory.unlisted := by
  induction m with
  | nil =>
    intro x hx
    simp only [Memory.put] at hx
    split at hx <;> simp_all
  | cons y m ih =>
    obtain ⟨k, v⟩ := y
    have hm : ∀ x ∈ m, x.2 ≠ Memory.unlisted := fun x hx => h x (List.mem_cons_of_mem _ hx)
    intro x hx
    simp only [Memory.put] at hx
    split at hx
    · split at hx
      · exact h x hx
      · rcases List.mem_cons.mp hx with rfl | hx
        · assumption
        · exact h x hx
    · split at hx
      · split at hx
        · exact hm x hx
        · rcases List.mem_cons.mp hx with rfl | hx
          · assumption
          · exact hm x hx
      · rcases List.mem_cons.mp hx with rfl | hx
        · exact h _ (by simp)
        · exact ih hm x hx

/-- A write keeps the addresses strictly rising. -/
theorem Memory.put_pairwise (m : Memory) (a : Nat) (b : Byte) (h : m.Pairwise fun x y => x.1 < y.1) :
    (m.put a b).Pairwise fun x y => x.1 < y.1 := by
  induction m with
  | nil =>
    simp only [Memory.put]
    split <;> simp
  | cons y m ih =>
    obtain ⟨k, v⟩ := y
    obtain ⟨hk, hm⟩ := List.pairwise_cons.mp h
    simp only [Memory.put]
    split
    · rename_i hak
      split
      · exact h
      · refine List.pairwise_cons.mpr ⟨fun x hx => ?_, h⟩
        rcases List.mem_cons.mp hx with rfl | hx
        · exact hak
        · exact Nat.lt_trans hak (hk x hx)
    · split
      · rename_i hne heq
        subst heq
        split
        · exact hm
        · exact List.pairwise_cons.mpr ⟨hk, hm⟩
      · rename_i hlt hne
        refine List.pairwise_cons.mpr ⟨fun x hx => ?_, ih hm⟩
        rcases Memory.mem_put m a b x hx with rfl | hx
        · exact Nat.lt_of_le_of_ne (Nat.le_of_not_lt hlt) (Ne.symm hne)
        · exact hk x hx

/-- A write keeps the canonical form. -/
theorem Memory.put_wf (m : Memory) (a : Nat) (b : Byte) (h : m.wf) : (m.put a b).wf :=
  ⟨m.put_pairwise a b h.1, m.put_listed a b h.2⟩

/-- A read after a one-byte write: the value written at its address, the old value elsewhere. -/
theorem Memory.byte_put (m : Memory) (a c : Nat) (b : Byte) (h : m.wf) :
    (m.put a b).byte c = if c = a then b else m.byte c := by
  obtain ⟨hp, -⟩ := h
  induction m with
  | nil =>
    by_cases hb : b = 0#8
    · simp [Memory.put, Memory.byte, hb]
    · by_cases hc : c = a
      · simp [Memory.put, Memory.byte, hb, hc]
      · have hac : ¬ a = c := fun e => hc e.symm
        simp [Memory.put, Memory.byte, hb, hc, hac]
  | cons y m ih =>
    obtain ⟨k, v⟩ := y
    obtain ⟨hk, hm⟩ := List.pairwise_cons.mp hp
    simp only [Memory.put]
    split
    · rename_i hak
      split
      · rename_i hb
        split
        · rename_i hc
          subst hc
          rw [hb]
          refine Memory.byte_below _ _ fun x hx => ?_
          rcases List.mem_cons.mp hx with rfl | hx
          · exact hak
          · exact Nat.lt_trans hak (hk x hx)
        · rfl
      · by_cases hc : c = a
        · subst hc; simp [Memory.byte]
        · have hac : ¬ a = c := fun e => hc e.symm
          rw [if_neg hc, Memory.byte, if_neg hac]
    · split
      · rename_i hne heq
        subst heq
        split
        · rename_i hb
          split
          · rename_i hc
            subst hc
            rw [hb]
            exact Memory.byte_below _ _ hk
          · rename_i hc
            have : ¬ a = c := fun e => hc e.symm
            simp [Memory.byte, this]
        · by_cases hc : c = a
          · subst hc; simp [Memory.byte]
          · have hac : ¬ a = c := fun e => hc e.symm
            simp [Memory.byte, hac, hc]
      · rename_i hlt hne
        rw [Memory.byte]
        by_cases hc : k = c
        · subst hc
          have : ¬ k = a := fun e => hne e.symm
          simp [Memory.byte, this]
        · simp only [hc, if_false, Memory.byte]
          exact ih hm

/-- Writing a byte string keeps the canonical form. -/
theorem Memory.writeRange_wf (bs : List Byte) (m : Memory) (a : Nat) (h : m.wf) :
    (m.writeRange a bs).wf := by
  induction bs generalizing m a with
  | nil => exact h
  | cons b bs ih => exact ih _ _ (m.put_wf a b h)

/-- A read after writing a byte string: the string inside its range, the old value elsewhere. -/
theorem Memory.byte_writeRange (bs : List Byte) (m : Memory) (a c : Nat) (h : m.wf) :
    (m.writeRange a bs).byte c =
      if a ≤ c ∧ c < a + bs.length then byteAt bs (c - a) else m.byte c := by
  induction bs generalizing m a with
  | nil =>
    have : ¬ (a ≤ c ∧ c < a) := by omega
    simp [Memory.writeRange, this]
  | cons b bs ih =>
    rw [Memory.writeRange, ih _ _ (m.put_wf a b h), m.byte_put a c b h]
    by_cases hc : c = a
    · subst hc
      simp [byteAt]
    · by_cases hin : a ≤ c ∧ c < a + (b :: bs).length
      · have h1 : a + 1 ≤ c ∧ c < a + 1 + bs.length := by
          simp only [List.length_cons] at hin; omega
        obtain ⟨d, hd⟩ : ∃ d, c - a = d + 1 := ⟨c - a - 1, by omega⟩
        have hd' : c - (a + 1) = d := by omega
        rw [if_pos h1, if_pos hin, hd, hd']
        simp [byteAt]
      · have h1 : ¬ (a + 1 ≤ c ∧ c < a + 1 + bs.length) := by
          simp only [List.length_cons] at hin; omega
        rw [if_neg h1, if_neg hin, if_neg hc]

/-- Every cell after writing a byte string lies in the written range or was there before. -/
theorem Memory.mem_writeRange (bs : List Byte) (m : Memory) (a : Nat) (x : Host.Cell)
    (h : x ∈ m.writeRange a bs) : (a ≤ x.1 ∧ x.1 < a + bs.length) ∨ x ∈ m := by
  induction bs generalizing m a with
  | nil => exact .inr h
  | cons b bs ih =>
    rcases ih _ _ h with h | h
    · left
      simp only [List.length_cons]
      omega
    · rcases m.mem_put a b x h with rfl | h
      · left
        simp
      · exact .inr h

@[simp] theorem Memory.readRange_length (m : Memory) (a n : Nat) : (m.readRange a n).length = n := by
  induction n generalizing a with
  | zero => rfl
  | succ n ih => simp [Memory.readRange, ih]

/-- Reading two adjoining ranges is reading the whole. -/
theorem Memory.readRange_append (m : Memory) (a i j : Nat) :
    m.readRange a (i + j) = m.readRange a i ++ m.readRange (a + i) j := by
  induction i generalizing a with
  | zero => simp [Memory.readRange]
  | succ i ih =>
    have e1 : i + 1 + j = (i + j) + 1 := by omega
    have e2 : a + (i + 1) = a + 1 + i := by omega
    simp only [e1, e2, Memory.readRange, ih, List.cons_append]

/-- Byte `k` of what a range reads as is the byte at that address (R61, R62). -/
theorem Memory.readRange_getElem? (m : Memory) (a n k : Nat) (h : k < n) :
    (m.readRange a n)[k]? = some (m.byte (a + k)) := by
  induction n generalizing a k with
  | zero => omega
  | succ n ih =>
    cases k with
    | zero => rfl
    | succ k =>
      rw [Memory.readRange, List.getElem?_cons_succ, ih (a + 1) k (by omega)]
      congr 2
      omega

/-- A byte string that agrees with the store address by address is what the range reads as. -/
theorem Memory.eq_readRange (m : Memory) (a : Nat) (v : List Byte)
    (h : ∀ k, k < v.length → v[k]? = some (m.byte (a + k))) : v = m.readRange a v.length := by
  apply List.ext_getElem?
  intro k
  by_cases hk : k < v.length
  · rw [h k hk, m.readRange_getElem? a v.length k hk]
  · rw [List.getElem?_eq_none (by omega), List.getElem?_eq_none (by simp; omega)]

/-- The launch contents have the canonical form. -/
theorem Memory.launch_wf (size : Nat) (cells : List Host.Cell) : (Memory.launch size cells).wf := by
  induction cells with
  | nil => exact ⟨List.Pairwise.nil, fun x hx => absurd hx List.not_mem_nil⟩
  | cons x cells ih =>
    rw [Memory.launch]
    split
    · exact Memory.put_wf _ _ _ ih
    · exact ih

/-- The launch contents list no address outside the store. -/
theorem Memory.launch_bounded (size : Nat) (cells : List Host.Cell) :
    ∀ x ∈ Memory.launch size cells, x.1 < size := by
  induction cells with
  | nil => exact fun x hx => absurd hx List.not_mem_nil
  | cons y cells ih =>
    intro x hx
    rw [Memory.launch] at hx
    split at hx
    · rename_i hy
      rcases Memory.mem_put _ _ _ _ hx with rfl | hx
      · exact hy
      · exact ih x hx
    · exact ih x hx

/-- What a store reads as at launch: the first launch cell of the address, else the unlisted byte. -/
theorem Memory.byte_launch (size : Nat) (cells : List Host.Cell) (a : Nat) (h : a < size) :
    (Memory.launch size cells).byte a =
      ((cells.find? fun x => x.1 = a).map Prod.snd).getD Memory.unlisted := by
  induction cells with
  | nil => rfl
  | cons x cells ih =>
    obtain ⟨k, v⟩ := x
    rw [Memory.launch]
    by_cases hk : k = a
    · subst hk
      rw [if_pos h, Memory.byte_put _ _ _ _ (Memory.launch_wf _ _)]
      simp
    · have : ¬ a = k := fun e => hk e.symm
      split
      · rw [Memory.byte_put _ _ _ _ (Memory.launch_wf _ _), if_neg this, ih]
        simp [hk]
      · rw [ih]
        simp [hk]

/-- The store of every LUN at power-on has the canonical form. -/
theorem powerOn_stores_wf (c : Config) : ∀ u ∈ (State.powerOn c).luns, u.store.wf := by
  intro u hu
  obtain ⟨l, -, rfl⟩ := List.mem_map.mp hu
  exact Memory.launch_wf _ _

/-- The store of every LUN at reset has the canonical form. -/
theorem reset_stores_wf : ∀ u ∈ State.reset.luns, u.store.wf := powerOn_stores_wf Config.default

/-- What `MemWrite` can do: nothing outside the store, else exactly the range of one LUN's store. -/
theorem memWrite_eq_some (l addr : Nat) (v : List Byte) (s t : State) (h : memWrite l addr v s = some t) :
    ∃ u, s.luns[l]? = some u ∧ addr + v.length ≤ u.capacity ∧
      t = (s.modifyLun l fun u => { u with store := u.store.writeRange addr v }).emit
        (.memWrite l addr v) := by
  unfold memWrite at h
  split at h
  · cases h
  · rename_i u hu
    split at h
    · rename_i hc
      exact ⟨u, hu, hc, (Option.some.inj h).symm⟩
    · cases h

/-- What `MemRead` answers: the bytes of the range, which lies inside the store. -/
theorem memRead_eq_some (l addr n : Nat) (s : State) (v : List Byte) (h : memRead l addr n s = some v) :
    ∃ u, s.luns[l]? = some u ∧ addr + n ≤ u.capacity ∧ v = u.store.readRange addr n := by
  unfold memRead at h
  split at h
  · cases h
  · rename_i u hu
    split at h
    · rename_i hc
      exact ⟨u, hu, hc, (Option.some.inj h).symm⟩
    · cases h

end Sys2Proof.Machine
end

