-- ==== Sys2Proof/Laws/State.lean ====
section
/-! SUPPORT. What each named update of State does to each field, so that no proof unfolds an update. -/

namespace Sys2Proof.Machine

variable (s : State)

@[simp] theorem emit_cfg (a : Action) : (s.emit a).cfg = s.cfg := rfl
@[simp] theorem emit_ctx (a : Action) : (s.emit a).ctx = s.ctx := rfl
@[simp] theorem emit_haltRx (a : Action) : (s.emit a).haltRx = s.haltRx := rfl
@[simp] theorem emit_haltTx (a : Action) : (s.emit a).haltTx = s.haltTx := rfl
@[simp] theorem emit_luns (a : Action) : (s.emit a).luns = s.luns := rfl
@[simp] theorem emit_evq (a : Action) : (s.emit a).evq = s.evq := rfl
@[simp] theorem emit_rxq (a : Action) : (s.emit a).rxq = s.rxq := rfl
@[simp] theorem emit_txq (a : Action) : (s.emit a).txq = s.txq := rfl
@[simp] theorem emit_hostRx (a : Action) : (s.emit a).hostRx = s.hostRx := rfl
@[simp] theorem emit_trace (a : Action) : (s.emit a).trace = s.trace ++ [a] := rfl
@[simp] theorem emit_env (a : Action) : (s.emit a).env = s.env := rfl

@[simp] theorem setHalt_cfg (ep : Endpoint) (b : Bool) : (s.setHalt ep b).cfg =
    s.cfg :=
  by cases ep <;> rfl
@[simp] theorem setHalt_ctx (ep : Endpoint) (b : Bool) : (s.setHalt ep b).ctx =
    s.ctx :=
  by cases ep <;> rfl
@[simp] theorem setHalt_haltRx (ep : Endpoint) (b : Bool) : (s.setHalt ep b).haltRx =
    if ep = .rx then b else s.haltRx :=
  by cases ep <;> rfl
@[simp] theorem setHalt_haltTx (ep : Endpoint) (b : Bool) : (s.setHalt ep b).haltTx =
    if ep = .tx then b else s.haltTx :=
  by cases ep <;> rfl
@[simp] theorem setHalt_luns (ep : Endpoint) (b : Bool) : (s.setHalt ep b).luns =
    s.luns :=
  by cases ep <;> rfl
@[simp] theorem setHalt_evq (ep : Endpoint) (b : Bool) : (s.setHalt ep b).evq =
    s.evq :=
  by cases ep <;> rfl
@[simp] theorem setHalt_rxq (ep : Endpoint) (b : Bool) : (s.setHalt ep b).rxq =
    s.rxq :=
  by cases ep <;> rfl
@[simp] theorem setHalt_txq (ep : Endpoint) (b : Bool) : (s.setHalt ep b).txq =
    s.txq :=
  by cases ep <;> rfl
@[simp] theorem setHalt_hostRx (ep : Endpoint) (b : Bool) : (s.setHalt ep b).hostRx =
    s.hostRx :=
  by cases ep <;> rfl
@[simp] theorem setHalt_trace (ep : Endpoint) (b : Bool) : (s.setHalt ep b).trace =
    s.trace :=
  by cases ep <;> rfl
@[simp] theorem setHalt_env (ep : Endpoint) (b : Bool) : (s.setHalt ep b).env =
    s.env :=
  by cases ep <;> rfl

@[simp] theorem stall_cfg (ep : Endpoint) : (stall ep s).cfg = s.cfg := by cases ep <;> rfl
@[simp] theorem stall_ctx (ep : Endpoint) : (stall ep s).ctx = s.ctx := by cases ep <;> rfl
@[simp] theorem stall_haltRx (ep : Endpoint) : (stall ep s).haltRx =
    if ep = .rx then true else s.haltRx :=
  by cases ep <;> rfl
@[simp] theorem stall_haltTx (ep : Endpoint) : (stall ep s).haltTx =
    if ep = .tx then true else s.haltTx :=
  by cases ep <;> rfl
@[simp] theorem stall_luns (ep : Endpoint) : (stall ep s).luns = s.luns := by cases ep <;> rfl
@[simp] theorem stall_evq (ep : Endpoint) : (stall ep s).evq = s.evq := by cases ep <;> rfl
@[simp] theorem stall_rxq (ep : Endpoint) : (stall ep s).rxq = s.rxq := by cases ep <;> rfl
@[simp] theorem stall_txq (ep : Endpoint) : (stall ep s).txq = s.txq := by cases ep <;> rfl
@[simp] theorem stall_hostRx (ep : Endpoint) : (stall ep s).hostRx = s.hostRx := by cases ep <;> rfl
@[simp] theorem stall_trace (ep : Endpoint) : (stall ep s).trace =
    s.trace ++ [.stall ep] :=
  by cases ep <;> rfl
@[simp] theorem stall_env (ep : Endpoint) : (stall ep s).env = s.env := by cases ep <;> rfl

@[simp] theorem unstall_cfg (ep : Endpoint) : (unstall ep s).cfg = s.cfg := by cases ep <;> rfl
@[simp] theorem unstall_ctx (ep : Endpoint) : (unstall ep s).ctx = s.ctx := by cases ep <;> rfl
@[simp] theorem unstall_haltRx (ep : Endpoint) : (unstall ep s).haltRx =
    if ep = .rx then false else s.haltRx :=
  by cases ep <;> rfl
@[simp] theorem unstall_haltTx (ep : Endpoint) : (unstall ep s).haltTx =
    if ep = .tx then false else s.haltTx :=
  by cases ep <;> rfl
@[simp] theorem unstall_luns (ep : Endpoint) : (unstall ep s).luns = s.luns := by cases ep <;> rfl
@[simp] theorem unstall_evq (ep : Endpoint) : (unstall ep s).evq = s.evq := by cases ep <;> rfl
@[simp] theorem unstall_rxq (ep : Endpoint) : (unstall ep s).rxq = s.rxq := by cases ep <;> rfl
@[simp] theorem unstall_txq (ep : Endpoint) : (unstall ep s).txq = s.txq := by cases ep <;> rfl
@[simp] theorem unstall_hostRx (ep : Endpoint) : (unstall ep s).hostRx = s.hostRx := by cases ep <;> rfl
@[simp] theorem unstall_trace (ep : Endpoint) : (unstall ep s).trace =
    s.trace ++ [.unstall ep] :=
  by cases ep <;> rfl
@[simp] theorem unstall_env (ep : Endpoint) : (unstall ep s).env = s.env := by cases ep <;> rfl

@[simp] theorem setSt_cfg (st : TransportState) : (s.setSt st).cfg = s.cfg := rfl
@[simp] theorem setSt_ctx (st : TransportState) : (s.setSt st).ctx = { s.ctx with st := st } := rfl
@[simp] theorem setSt_haltRx (st : TransportState) : (s.setSt st).haltRx = s.haltRx := rfl
@[simp] theorem setSt_haltTx (st : TransportState) : (s.setSt st).haltTx = s.haltTx := rfl
@[simp] theorem setSt_luns (st : TransportState) : (s.setSt st).luns = s.luns := rfl
@[simp] theorem setSt_evq (st : TransportState) : (s.setSt st).evq = s.evq := rfl
@[simp] theorem setSt_rxq (st : TransportState) : (s.setSt st).rxq = s.rxq := rfl
@[simp] theorem setSt_txq (st : TransportState) : (s.setSt st).txq = s.txq := rfl
@[simp] theorem setSt_hostRx (st : TransportState) : (s.setSt st).hostRx = s.hostRx := rfl
@[simp] theorem setSt_trace (st : TransportState) : (s.setSt st).trace = s.trace := rfl
@[simp] theorem setSt_env (st : TransportState) : (s.setSt st).env = s.env := rfl

@[simp] theorem setBusy_cfg (b : Bool) : (setBusy b s).cfg = s.cfg := rfl
@[simp] theorem setBusy_ctx (b : Bool) : (setBusy b s).ctx = { s.ctx with busy := b } := rfl
@[simp] theorem setBusy_haltRx (b : Bool) : (setBusy b s).haltRx = s.haltRx := rfl
@[simp] theorem setBusy_haltTx (b : Bool) : (setBusy b s).haltTx = s.haltTx := rfl
@[simp] theorem setBusy_luns (b : Bool) : (setBusy b s).luns = s.luns := rfl
@[simp] theorem setBusy_evq (b : Bool) : (setBusy b s).evq = s.evq := rfl
@[simp] theorem setBusy_rxq (b : Bool) : (setBusy b s).rxq = s.rxq := rfl
@[simp] theorem setBusy_txq (b : Bool) : (setBusy b s).txq = s.txq := rfl
@[simp] theorem setBusy_hostRx (b : Bool) : (setBusy b s).hostRx = s.hostRx := rfl
@[simp] theorem setBusy_trace (b : Bool) : (setBusy b s).trace = s.trace ++ [.lpmAllow (!b)] := rfl
@[simp] theorem setBusy_env (b : Bool) : (setBusy b s).env = s.env := rfl

@[simp] theorem wedge_cfg : (wedge s).cfg = s.cfg := rfl
@[simp] theorem wedge_ctx : (wedge s).ctx = { s.ctx with wedged := true } := rfl
@[simp] theorem wedge_haltRx : (wedge s).haltRx = s.haltRx := rfl
@[simp] theorem wedge_haltTx : (wedge s).haltTx = s.haltTx := rfl
@[simp] theorem wedge_luns : (wedge s).luns = s.luns := rfl
@[simp] theorem wedge_evq : (wedge s).evq = s.evq := rfl
@[simp] theorem wedge_rxq : (wedge s).rxq = s.rxq := rfl
@[simp] theorem wedge_txq : (wedge s).txq = s.txq := rfl
@[simp] theorem wedge_hostRx : (wedge s).hostRx = s.hostRx := rfl
@[simp] theorem wedge_trace : (wedge s).trace = s.trace := rfl
@[simp] theorem wedge_env : (wedge s).env = s.env := rfl

@[simp] theorem setXfer_cfg (x : Xfer) : (s.setXfer x).cfg = s.cfg := rfl
@[simp] theorem setXfer_ctx (x : Xfer) : (s.setXfer x).ctx = { s.ctx with xfer := x } := rfl
@[simp] theorem setXfer_haltRx (x : Xfer) : (s.setXfer x).haltRx = s.haltRx := rfl
@[simp] theorem setXfer_haltTx (x : Xfer) : (s.setXfer x).haltTx = s.haltTx := rfl
@[simp] theorem setXfer_luns (x : Xfer) : (s.setXfer x).luns = s.luns := rfl
@[simp] theorem setXfer_evq (x : Xfer) : (s.setXfer x).evq = s.evq := rfl
@[simp] theorem setXfer_rxq (x : Xfer) : (s.setXfer x).rxq = s.rxq := rfl
@[simp] theorem setXfer_txq (x : Xfer) : (s.setXfer x).txq = s.txq := rfl
@[simp] theorem setXfer_hostRx (x : Xfer) : (s.setXfer x).hostRx = s.hostRx := rfl
@[simp] theorem setXfer_trace (x : Xfer) : (s.setXfer x).trace = s.trace := rfl
@[simp] theorem setXfer_env (x : Xfer) : (s.setXfer x).env = s.env := rfl

@[simp] theorem modifyLun_cfg (l : Nat) (f : Lun → Lun) : (s.modifyLun l f).cfg = s.cfg := rfl
@[simp] theorem modifyLun_ctx (l : Nat) (f : Lun → Lun) : (s.modifyLun l f).ctx = s.ctx := rfl
@[simp] theorem modifyLun_haltRx (l : Nat) (f : Lun → Lun) : (s.modifyLun l f).haltRx = s.haltRx := rfl
@[simp] theorem modifyLun_haltTx (l : Nat) (f : Lun → Lun) : (s.modifyLun l f).haltTx = s.haltTx := rfl
@[simp] theorem modifyLun_luns (l : Nat) (f : Lun → Lun) : (s.modifyLun l f).luns =
    s.luns.modify l f :=
  rfl
@[simp] theorem modifyLun_evq (l : Nat) (f : Lun → Lun) : (s.modifyLun l f).evq = s.evq := rfl
@[simp] theorem modifyLun_rxq (l : Nat) (f : Lun → Lun) : (s.modifyLun l f).rxq = s.rxq := rfl
@[simp] theorem modifyLun_txq (l : Nat) (f : Lun → Lun) : (s.modifyLun l f).txq = s.txq := rfl
@[simp] theorem modifyLun_hostRx (l : Nat) (f : Lun → Lun) : (s.modifyLun l f).hostRx = s.hostRx := rfl
@[simp] theorem modifyLun_trace (l : Nat) (f : Lun → Lun) : (s.modifyLun l f).trace = s.trace := rfl
@[simp] theorem modifyLun_env (l : Nat) (f : Lun → Lun) : (s.modifyLun l f).env = s.env := rfl

@[simp] theorem recordSense_cfg (l : Nat) (x : Sense) : (recordSense l x s).cfg = s.cfg := rfl
@[simp] theorem recordSense_ctx (l : Nat) (x : Sense) : (recordSense l x s).ctx = s.ctx := rfl
@[simp] theorem recordSense_haltRx (l : Nat) (x : Sense) : (recordSense l x s).haltRx = s.haltRx := rfl
@[simp] theorem recordSense_haltTx (l : Nat) (x : Sense) : (recordSense l x s).haltTx = s.haltTx := rfl
@[simp] theorem recordSense_luns (l : Nat) (x : Sense) : (recordSense l x s).luns =
    s.luns.modify l fun u => { u with lastSense := x } :=
  rfl
@[simp] theorem recordSense_evq (l : Nat) (x : Sense) : (recordSense l x s).evq = s.evq := rfl
@[simp] theorem recordSense_rxq (l : Nat) (x : Sense) : (recordSense l x s).rxq = s.rxq := rfl
@[simp] theorem recordSense_txq (l : Nat) (x : Sense) : (recordSense l x s).txq = s.txq := rfl
@[simp] theorem recordSense_hostRx (l : Nat) (x : Sense) : (recordSense l x s).hostRx = s.hostRx := rfl
@[simp] theorem recordSense_trace (l : Nat) (x : Sense) : (recordSense l x s).trace = s.trace := rfl
@[simp] theorem recordSense_env (l : Nat) (x : Sense) : (recordSense l x s).env = s.env := rfl

@[simp] theorem drawnAcquire_cfg : (drawnAcquire s).cfg = s.cfg := rfl
@[simp] theorem drawnAcquire_ctx : (drawnAcquire s).ctx = s.ctx := rfl
@[simp] theorem drawnAcquire_haltRx : (drawnAcquire s).haltRx = s.haltRx := rfl
@[simp] theorem drawnAcquire_haltTx : (drawnAcquire s).haltTx = s.haltTx := rfl
@[simp] theorem drawnAcquire_luns : (drawnAcquire s).luns = s.luns := rfl
@[simp] theorem drawnAcquire_evq : (drawnAcquire s).evq = s.evq := rfl
@[simp] theorem drawnAcquire_rxq : (drawnAcquire s).rxq = s.rxq := rfl
@[simp] theorem drawnAcquire_txq : (drawnAcquire s).txq = s.txq := rfl
@[simp] theorem drawnAcquire_hostRx : (drawnAcquire s).hostRx = s.hostRx := rfl
@[simp] theorem drawnAcquire_trace : (drawnAcquire s).trace = s.trace := rfl
@[simp] theorem drawnAcquire_env : (drawnAcquire s).env =
    { s.env with acquires := s.env.acquires.tail, draws := s.env.draws + 1 } :=
  rfl

@[simp] theorem drawnCommit_cfg : (drawnCommit s).cfg = s.cfg := rfl
@[simp] theorem drawnCommit_ctx : (drawnCommit s).ctx = s.ctx := rfl
@[simp] theorem drawnCommit_haltRx : (drawnCommit s).haltRx = s.haltRx := rfl
@[simp] theorem drawnCommit_haltTx : (drawnCommit s).haltTx = s.haltTx := rfl
@[simp] theorem drawnCommit_luns : (drawnCommit s).luns = s.luns := rfl
@[simp] theorem drawnCommit_evq : (drawnCommit s).evq = s.evq := rfl
@[simp] theorem drawnCommit_rxq : (drawnCommit s).rxq = s.rxq := rfl
@[simp] theorem drawnCommit_txq : (drawnCommit s).txq = s.txq := rfl
@[simp] theorem drawnCommit_hostRx : (drawnCommit s).hostRx = s.hostRx := rfl
@[simp] theorem drawnCommit_trace : (drawnCommit s).trace = s.trace := rfl
@[simp] theorem drawnCommit_env : (drawnCommit s).env =
    { s.env with commits := s.env.commits.tail, draws := s.env.draws + 1 } :=
  rfl

@[simp] theorem drawnTag_cfg : (drawnTag s).cfg = s.cfg := rfl
@[simp] theorem drawnTag_ctx : (drawnTag s).ctx = s.ctx := rfl
@[simp] theorem drawnTag_haltRx : (drawnTag s).haltRx = s.haltRx := rfl
@[simp] theorem drawnTag_haltTx : (drawnTag s).haltTx = s.haltTx := rfl
@[simp] theorem drawnTag_luns : (drawnTag s).luns = s.luns := rfl
@[simp] theorem drawnTag_evq : (drawnTag s).evq = s.evq := rfl
@[simp] theorem drawnTag_rxq : (drawnTag s).rxq = s.rxq := rfl
@[simp] theorem drawnTag_txq : (drawnTag s).txq = s.txq := rfl
@[simp] theorem drawnTag_hostRx : (drawnTag s).hostRx = s.hostRx := rfl
@[simp] theorem drawnTag_trace : (drawnTag s).trace = s.trace := rfl
@[simp] theorem drawnTag_env : (drawnTag s).env = { s.env with draws := s.env.draws + 1 } := rfl

@[simp] theorem drawnPick_cfg : (drawnPick s).cfg = s.cfg := rfl
@[simp] theorem drawnPick_ctx : (drawnPick s).ctx = s.ctx := rfl
@[simp] theorem drawnPick_haltRx : (drawnPick s).haltRx = s.haltRx := rfl
@[simp] theorem drawnPick_haltTx : (drawnPick s).haltTx = s.haltTx := rfl
@[simp] theorem drawnPick_luns : (drawnPick s).luns = s.luns := rfl
@[simp] theorem drawnPick_evq : (drawnPick s).evq = s.evq := rfl
@[simp] theorem drawnPick_rxq : (drawnPick s).rxq = s.rxq := rfl
@[simp] theorem drawnPick_txq : (drawnPick s).txq = s.txq := rfl
@[simp] theorem drawnPick_hostRx : (drawnPick s).hostRx = s.hostRx := rfl
@[simp] theorem drawnPick_trace : (drawnPick s).trace = s.trace := rfl
@[simp] theorem drawnPick_env : (drawnPick s).env = { s.env with draws := s.env.draws + 1 } := rfl

@[simp] theorem pipeDiscard_cfg : (pipeDiscard s).cfg = s.cfg := rfl
@[simp] theorem pipeDiscard_ctx : (pipeDiscard s).ctx = s.ctx := rfl
@[simp] theorem pipeDiscard_haltRx : (pipeDiscard s).haltRx = s.haltRx := rfl
@[simp] theorem pipeDiscard_haltTx : (pipeDiscard s).haltTx = s.haltTx := rfl
@[simp] theorem pipeDiscard_luns : (pipeDiscard s).luns = s.luns := rfl
@[simp] theorem pipeDiscard_evq : (pipeDiscard s).evq = s.evq := rfl
@[simp] theorem pipeDiscard_rxq : (pipeDiscard s).rxq = s.rxq := rfl
@[simp] theorem pipeDiscard_txq : (pipeDiscard s).txq = s.txq := rfl
@[simp] theorem pipeDiscard_hostRx : (pipeDiscard s).hostRx = s.hostRx := rfl
@[simp] theorem pipeDiscard_trace : (pipeDiscard s).trace = s.trace ++ [.pipeDiscard] := rfl
@[simp] theorem pipeDiscard_env : (pipeDiscard s).env = s.env := rfl

@[simp] theorem pipeReset_cfg (ep : Endpoint) : (pipeReset ep s).cfg = s.cfg := by cases ep <;> rfl
@[simp] theorem pipeReset_ctx (ep : Endpoint) : (pipeReset ep s).ctx = s.ctx := by cases ep <;> rfl
@[simp] theorem pipeReset_haltRx (ep : Endpoint) : (pipeReset ep s).haltRx =
    s.haltRx :=
  by cases ep <;> rfl
@[simp] theorem pipeReset_haltTx (ep : Endpoint) : (pipeReset ep s).haltTx =
    s.haltTx :=
  by cases ep <;> rfl
@[simp] theorem pipeReset_luns (ep : Endpoint) : (pipeReset ep s).luns = s.luns := by cases ep <;> rfl
@[simp] theorem pipeReset_evq (ep : Endpoint) : (pipeReset ep s).evq = s.evq := by cases ep <;> rfl
@[simp] theorem pipeReset_rxq (ep : Endpoint) : (pipeReset ep s).rxq =
    if ep = .rx then [] else s.rxq :=
  by cases ep <;> rfl
@[simp] theorem pipeReset_txq (ep : Endpoint) : (pipeReset ep s).txq =
    if ep = .tx then [] else s.txq :=
  by cases ep <;> rfl
@[simp] theorem pipeReset_hostRx (ep : Endpoint) : (pipeReset ep s).hostRx =
    s.hostRx :=
  by cases ep <;> rfl
@[simp] theorem pipeReset_trace (ep : Endpoint) : (pipeReset ep s).trace =
    s.trace ++ [.pipeReset ep] :=
  by cases ep <;> rfl
@[simp] theorem pipeReset_env (ep : Endpoint) : (pipeReset ep s).env = s.env := by cases ep <;> rfl

@[simp] theorem flushPipes_cfg : (flushPipes s).cfg = s.cfg := rfl
@[simp] theorem flushPipes_ctx : (flushPipes s).ctx = s.ctx := rfl
@[simp] theorem flushPipes_haltRx : (flushPipes s).haltRx = s.haltRx := rfl
@[simp] theorem flushPipes_haltTx : (flushPipes s).haltTx = s.haltTx := rfl
@[simp] theorem flushPipes_luns : (flushPipes s).luns = s.luns := rfl
@[simp] theorem flushPipes_evq : (flushPipes s).evq = s.evq := rfl
@[simp] theorem flushPipes_rxq : (flushPipes s).rxq = [] := rfl
@[simp] theorem flushPipes_txq : (flushPipes s).txq = [] := rfl
@[simp] theorem flushPipes_hostRx : (flushPipes s).hostRx = s.hostRx := rfl
@[simp] theorem flushPipes_trace : (flushPipes s).trace =
    s.trace ++ [.pipeReset .rx] ++ [.pipeReset .tx] :=
  rfl
@[simp] theorem flushPipes_env : (flushPipes s).env = s.env := rfl

@[simp] theorem loadCommand_cfg (h : CbwHeader) : (loadCommand h s).cfg = s.cfg := rfl
@[simp] theorem loadCommand_ctx (h : CbwHeader) : (loadCommand h s).ctx =
      { s.ctx with tag := h.tag, xferLen := h.xferLen, dir := h.dir, lunSel := h.lun, residue := h.xferLen,
                   status := .ok, xfer := .none } :=
  rfl
@[simp] theorem loadCommand_haltRx (h : CbwHeader) : (loadCommand h s).haltRx = s.haltRx := rfl
@[simp] theorem loadCommand_haltTx (h : CbwHeader) : (loadCommand h s).haltTx = s.haltTx := rfl
@[simp] theorem loadCommand_luns (h : CbwHeader) : (loadCommand h s).luns = s.luns := rfl
@[simp] theorem loadCommand_evq (h : CbwHeader) : (loadCommand h s).evq = s.evq := rfl
@[simp] theorem loadCommand_rxq (h : CbwHeader) : (loadCommand h s).rxq = s.rxq := rfl
@[simp] theorem loadCommand_txq (h : CbwHeader) : (loadCommand h s).txq = s.txq := rfl
@[simp] theorem loadCommand_hostRx (h : CbwHeader) : (loadCommand h s).hostRx = s.hostRx := rfl
@[simp] theorem loadCommand_trace (h : CbwHeader) : (loadCommand h s).trace = s.trace := rfl
@[simp] theorem loadCommand_env (h : CbwHeader) : (loadCommand h s).env = s.env := rfl

@[simp] theorem commandFail_cfg (x : Sense) : (commandFail x s).cfg = s.cfg := rfl
@[simp] theorem commandFail_ctx (x : Sense) : (commandFail x s).ctx =
    { s.ctx with status := .failed, xfer := .none } :=
  rfl
@[simp] theorem commandFail_haltRx (x : Sense) : (commandFail x s).haltRx = s.haltRx := rfl
@[simp] theorem commandFail_haltTx (x : Sense) : (commandFail x s).haltTx = s.haltTx := rfl
@[simp] theorem commandFail_luns (x : Sense) : (commandFail x s).luns =
    s.luns.modify s.ctx.lunSel.toNat fun u => { u with lastSense := x } :=
  rfl
@[simp] theorem commandFail_evq (x : Sense) : (commandFail x s).evq = s.evq := rfl
@[simp] theorem commandFail_rxq (x : Sense) : (commandFail x s).rxq = s.rxq := rfl
@[simp] theorem commandFail_txq (x : Sense) : (commandFail x s).txq = s.txq := rfl
@[simp] theorem commandFail_hostRx (x : Sense) : (commandFail x s).hostRx = s.hostRx := rfl
@[simp] theorem commandFail_trace (x : Sense) : (commandFail x s).trace = s.trace := rfl
@[simp] theorem commandFail_env (x : Sense) : (commandFail x s).env = s.env := rfl

@[simp] theorem advanceXfer_cfg (n : Nat) : (advanceXfer n s).cfg = s.cfg := rfl
@[simp] theorem advanceXfer_ctx (n : Nat) : (advanceXfer n s).ctx =
      { s.ctx with residue := s.ctx.residue - BitVec.ofNat 32 n, xfer := s.ctx.xfer.advance n } :=
  rfl
@[simp] theorem advanceXfer_haltRx (n : Nat) : (advanceXfer n s).haltRx = s.haltRx := rfl
@[simp] theorem advanceXfer_haltTx (n : Nat) : (advanceXfer n s).haltTx = s.haltTx := rfl
@[simp] theorem advanceXfer_luns (n : Nat) : (advanceXfer n s).luns = s.luns := rfl
@[simp] theorem advanceXfer_evq (n : Nat) : (advanceXfer n s).evq = s.evq := rfl
@[simp] theorem advanceXfer_rxq (n : Nat) : (advanceXfer n s).rxq = s.rxq := rfl
@[simp] theorem advanceXfer_txq (n : Nat) : (advanceXfer n s).txq = s.txq := rfl
@[simp] theorem advanceXfer_hostRx (n : Nat) : (advanceXfer n s).hostRx = s.hostRx := rfl
@[simp] theorem advanceXfer_trace (n : Nat) : (advanceXfer n s).trace = s.trace := rfl
@[simp] theorem advanceXfer_env (n : Nat) : (advanceXfer n s).env = s.env := rfl

@[simp] theorem startAllUnits_cfg : (startAllUnits s).cfg = s.cfg := rfl
@[simp] theorem startAllUnits_ctx : (startAllUnits s).ctx = s.ctx := rfl
@[simp] theorem startAllUnits_haltRx : (startAllUnits s).haltRx = s.haltRx := rfl
@[simp] theorem startAllUnits_haltTx : (startAllUnits s).haltTx = s.haltTx := rfl
@[simp] theorem startAllUnits_luns : (startAllUnits s).luns =
    s.luns.map fun u => { u with stopped := false } :=
  rfl
@[simp] theorem startAllUnits_evq : (startAllUnits s).evq = s.evq := rfl
@[simp] theorem startAllUnits_rxq : (startAllUnits s).rxq = s.rxq := rfl
@[simp] theorem startAllUnits_txq : (startAllUnits s).txq = s.txq := rfl
@[simp] theorem startAllUnits_hostRx : (startAllUnits s).hostRx = s.hostRx := rfl
@[simp] theorem startAllUnits_trace : (startAllUnits s).trace = s.trace := rfl
@[simp] theorem startAllUnits_env : (startAllUnits s).env = s.env := rfl

@[simp] theorem enqueue_cfg (e : Event) : (s.enqueue e).cfg = s.cfg := rfl
@[simp] theorem enqueue_ctx (e : Event) : (s.enqueue e).ctx = s.ctx := rfl
@[simp] theorem enqueue_haltRx (e : Event) : (s.enqueue e).haltRx = s.haltRx := rfl
@[simp] theorem enqueue_haltTx (e : Event) : (s.enqueue e).haltTx = s.haltTx := rfl
@[simp] theorem enqueue_luns (e : Event) : (s.enqueue e).luns = s.luns := rfl
@[simp] theorem enqueue_evq (e : Event) : (s.enqueue e).evq = s.evq ++ [e] := rfl
@[simp] theorem enqueue_rxq (e : Event) : (s.enqueue e).rxq = s.rxq := rfl
@[simp] theorem enqueue_txq (e : Event) : (s.enqueue e).txq = s.txq := rfl
@[simp] theorem enqueue_hostRx (e : Event) : (s.enqueue e).hostRx = s.hostRx := rfl
@[simp] theorem enqueue_trace (e : Event) : (s.enqueue e).trace = s.trace := rfl
@[simp] theorem enqueue_env (e : Event) : (s.enqueue e).env = s.env := rfl

@[simp] theorem setSchedule_cfg (sched : List Turn) : (s.setSchedule sched).cfg = s.cfg := rfl
@[simp] theorem setSchedule_ctx (sched : List Turn) : (s.setSchedule sched).ctx = s.ctx := rfl
@[simp] theorem setSchedule_haltRx (sched : List Turn) : (s.setSchedule sched).haltRx = s.haltRx := rfl
@[simp] theorem setSchedule_haltTx (sched : List Turn) : (s.setSchedule sched).haltTx = s.haltTx := rfl
@[simp] theorem setSchedule_luns (sched : List Turn) : (s.setSchedule sched).luns = s.luns := rfl
@[simp] theorem setSchedule_evq (sched : List Turn) : (s.setSchedule sched).evq = s.evq := rfl
@[simp] theorem setSchedule_rxq (sched : List Turn) : (s.setSchedule sched).rxq = s.rxq := rfl
@[simp] theorem setSchedule_txq (sched : List Turn) : (s.setSchedule sched).txq = s.txq := rfl
@[simp] theorem setSchedule_hostRx (sched : List Turn) : (s.setSchedule sched).hostRx = s.hostRx := rfl
@[simp] theorem setSchedule_trace (sched : List Turn) : (s.setSchedule sched).trace = s.trace := rfl
@[simp] theorem setSchedule_env (sched : List Turn) : (s.setSchedule sched).env =
    { s.env with schedule := sched } :=
  rfl

end Sys2Proof.Machine
end

