-- ==== Sys2Proof/Laws/Ops.lean ====
section
/-! SUPPORT. One lemma per shared operation that says once everything it can do; later proofs cite these
instead of unfolding the operation. -/

namespace Sys2Proof.Machine

/-! ### Cancellation -/

/-- The shared cancellation of the reset rules, as one update of the context and the trace. -/
theorem cancelCommand_eq (s : State) :
    cancelCommand s =
      { s with
        ctx := { s.ctx with busy := false, xfer := .none, residue := 0, wedged := false }
        trace := if s.ctx.busy then s.trace ++ [.lpmAllow true] else s.trace } := by
  obtain ⟨cfg, ⟨st, pe, busy, wd, cbw, tag, dir, lun, len, res, status, xfer⟩, hr, ht, luns, evq, rxq, txq,
    host, trace, env⟩ := s
  cases busy <;> rfl

/-- Both stalls, as one update of the halt bits and the trace. -/
theorem stallBoth_eq (s : State) :
    stallBoth s =
      { s with haltRx := true, haltTx := true, trace := s.trace ++ [.stall .rx] ++ [.stall .tx] } :=
  rfl

/-! ### Pipes -/

/-- The two outcomes of a commit (R132). -/
theorem pipeCommit_cases (bytes : Buffer) (s : State) :
    (s.nextCommit = .ok ∧ pipeCommit bytes s =
      (true, { drawnCommit s with txq := s.txq ++ [bytes], trace := s.trace ++ [.pipeCommit bytes] })) ∨
    (s.nextCommit = .fail ∧ pipeCommit bytes s = (false, drawnCommit s)) := by
  unfold pipeCommit
  cases h : s.nextCommit
  · exact .inl ⟨rfl, rfl⟩
  · exact .inr ⟨rfl, rfl⟩

/-- The three outcomes of queuing a message: queued, no buffer acquired, commit failed (R285). -/
theorem queueTx_cases (bytes : Buffer) (s : State) :
    (s.nextAcquire = .buffer ∧ (drawnAcquire s).nextCommit = .ok ∧ queueTx bytes s =
      (true, { drawnCommit (drawnAcquire s) with
        txq := s.txq ++ [bytes], trace := s.trace ++ [.pipeCommit bytes] })) ∨
    (s.nextAcquire ≠ .buffer ∧ queueTx bytes s = (false, drawnAcquire s)) ∨
    (s.nextAcquire = .buffer ∧ (drawnAcquire s).nextCommit = .fail ∧
      queueTx bytes s = (false, drawnCommit (drawnAcquire s))) := by
  unfold queueTx pipeAcquireTx
  by_cases ha : s.nextAcquire = .buffer
  · rcases pipeCommit_cases bytes (drawnAcquire s) with ⟨hc, h⟩ | ⟨hc, h⟩
    · exact .inl ⟨ha, hc, by simp [ha, h]⟩
    · exact .inr (.inr ⟨ha, hc, by simp [ha, h]⟩)
  · exact .inr (.inl ⟨ha, by simp [ha]⟩)

/-- What an acquire on RX returns: the head buffer, taken from the queue, or nothing with the head lost
(R131). -/
theorem pipeAcquireRx_cases (s : State) :
    (∃ b, s.nextAcquire = .buffer ∧ s.rxq.head? = some b ∧
      pipeAcquireRx s = (some b, { drawnAcquire s with rxq := s.rxq.tail })) ∨
    ((s.nextAcquire ≠ .buffer ∨ s.rxq = []) ∧
      pipeAcquireRx s = (none, { drawnAcquire s with rxq := s.rxq.tail })) := by
  unfold pipeAcquireRx
  by_cases ha : s.nextAcquire = .buffer
  · cases hq : s.rxq with
    | nil => exact .inr ⟨.inr rfl, by simp⟩
    | cons b q => exact .inl ⟨b, ha, rfl, by simp [ha]⟩
  · exact .inr ⟨.inl ha, by simp [ha]⟩

/-! ### Phase error and STATUS entry -/

/-- The context a phase error leaves before its CSW is queued (R154). -/
def phaseErrorCtx (s : State) : Ctx := { s.ctx with phaseError := true, status := .phaseError }

/-- The phase-error entry either queues its CSW and stands in `STATUS`, or is stuck (R154). -/
theorem raisePhaseError_cases (s : State) :
    (∃ csw env, csw = cswBytes (Config.freeTag s.env.draws) 0 .phaseError ∧ raisePhaseError s =
      { s with ctx := { phaseErrorCtx s with st := .status }, txq := s.txq ++ [csw],
               trace := s.trace ++ [.pipeCommit csw], env := env }) ∨
    (∃ env, raisePhaseError s = { s with ctx := { phaseErrorCtx s with wedged := true }, env := env }) := by
  have e : raisePhaseError s =
      match queueTx (cswBytes (Config.freeTag s.env.draws) 0 .phaseError)
        { drawnTag s with ctx := phaseErrorCtx s } with
      | (false, s) => wedge s
      | (true, s) => s.setSt .status := rfl
  rcases queueTx_cases (cswBytes (Config.freeTag s.env.draws) 0 .phaseError)
      { drawnTag s with ctx := phaseErrorCtx s } with ⟨-, -, h⟩ | ⟨-, h⟩ | ⟨-, -, h⟩
  all_goals rw [h] at e
  · exact .inl ⟨_, _, rfl, e⟩
  · exact .inr ⟨_, e⟩
  · exact .inr ⟨_, e⟩

/-- R283 changes only `halt[RX]` and the trace. -/
theorem stallUnfinishedOut_eq (s : State) :
    stallUnfinishedOut s =
      { s with
        haltRx := if s.ctx.dir = .dirOut ∧ s.ctx.residue ≠ 0 then true else s.haltRx
        trace := if s.ctx.dir = .dirOut ∧ s.ctx.residue ≠ 0 then s.trace ++ [.stall .rx] else s.trace } := by
  by_cases hc : s.ctx.dir = .dirOut ∧ s.ctx.residue ≠ 0
  · simp only [stallUnfinishedOut, if_pos hc]; rfl
  · simp only [stallUnfinishedOut, if_neg hc]

/-- R284 changes only `halt[TX]` and the trace. -/
theorem stallShortIn_eq (s : State) :
    stallShortIn s =
      { s with
        haltTx := if s.ctx.dir = .dirIn ∧ s.ctx.residue ≠ 0 then true else s.haltTx
        trace := if s.ctx.dir = .dirIn ∧ s.ctx.residue ≠ 0 then s.trace ++ [.stall .tx] else s.trace } := by
  by_cases hc : s.ctx.dir = .dirIn ∧ s.ctx.residue ≠ 0
  · simp only [stallShortIn, if_pos hc]; rfl
  · simp only [stallShortIn, if_neg hc]

/-- STATUS entry either queues the CSW and ends the command, or is stuck (R280, R285). -/
theorem enterStatus_cases (s : State) :
    (∃ haltRx haltTx trace env csw, csw = cswBytes s.ctx.tag s.ctx.residue s.ctx.status ∧ enterStatus s =
      { s with ctx := { s.ctx with busy := false, residue := 0, st := .status }, haltRx := haltRx,
               haltTx := haltTx, txq := s.txq ++ [csw], trace := trace, env := env }) ∨
    (∃ haltRx trace env, enterStatus s =
      { s with ctx := { s.ctx with wedged := true }, haltRx := haltRx, trace := trace, env := env }) := by
  have e : enterStatus s =
      match queueTx (cswBytes s.ctx.tag s.ctx.residue s.ctx.status) (stallUnfinishedOut s) with
      | (false, s) => wedge s
      | (true, s) => finishCommand s := by
    unfold enterStatus
    rw [stallUnfinishedOut_eq]
    try rfl
  rw [stallUnfinishedOut_eq] at e
  rcases queueTx_cases (cswBytes s.ctx.tag s.ctx.residue s.ctx.status)
      { s with
        haltRx := if s.ctx.dir = .dirOut ∧ s.ctx.residue ≠ 0 then true else s.haltRx
        trace := if s.ctx.dir = .dirOut ∧ s.ctx.residue ≠ 0 then s.trace ++ [.stall .rx] else s.trace } with
    ⟨-, -, h⟩ | ⟨-, h⟩ | ⟨-, -, h⟩
  all_goals rw [h] at e
  · simp only [finishCommand, stallShortIn_eq] at e
    exact .inl ⟨_, _, _, _, _, rfl, e⟩
  · exact .inr ⟨_, _, _, e⟩
  · exact .inr ⟨_, _, _, e⟩

/-! ### The dispatcher (R170) -/

/-- Everything the common part of the dispatcher can do, in the order of its tests (R170 to R177). -/
theorem runCommand_cases (h : CbwHeader) (p : Lun → Policy) (handler : Lun → State → State) (s : State) :
    (s.luns[h.lun.toNat]? = none ∧
      runCommand h p handler s = commandFail .invalidFieldInCbw (loadCommand h s)) ∨
    (∃ u, s.luns[h.lun.toNat]? = some u ∧
      ((lengthMatches (p u) (loadCommand h s).ctx = false ∧
          runCommand h p handler s = commandFail .invalidParameter (loadCommand h s)) ∨
       (lengthMatches (p u) (loadCommand h s).ctx = true ∧ notReady (p u) u = true ∧
          runCommand h p handler s = commandFail (notReadySense u) (loadCommand h s)) ∨
       (lengthMatches (p u) (loadCommand h s).ctx = true ∧ notReady (p u) u = false ∧
          runCommand h p handler s = handler u (loadCommand h s)))) := by
  have e : runCommand h p handler s =
      match s.luns[h.lun.toNat]? with
      | none => commandFail .invalidFieldInCbw (loadCommand h s)
      | some u =>
        if lengthMatches (p u) (loadCommand h s).ctx then
          if notReady (p u) u then commandFail (notReadySense u) (loadCommand h s)
          else handler u (loadCommand h s)
        else commandFail .invalidParameter (loadCommand h s) := rfl
  cases hu : s.luns[h.lun.toNat]? with
  | none => rw [hu] at e; exact .inl ⟨rfl, e⟩
  | some u =>
    rw [hu] at e
    refine .inr ⟨u, rfl, ?_⟩
    cases h1 : lengthMatches (p u) (loadCommand h s).ctx
    · exact .inl ⟨rfl, by rw [e]; simp only [h1]; rfl⟩
    · cases h2 : notReady (p u) u
      · exact .inr (.inr ⟨rfl, rfl, by rw [e]; simp only [h1, h2]; rfl⟩)
      · exact .inr (.inl ⟨rfl, rfl, by rw [e]; simp only [h1, h2]; rfl⟩)

/-- A command rejected at recognition always fails; only the sense depends on the LUN (R172, R173). -/
theorem rejectCommand_cases (h : CbwHeader) (x : Sense) (s : State) :
    (s.luns[h.lun.toNat]? = none ∧
      rejectCommand h x s = commandFail .invalidFieldInCbw (loadCommand h s)) ∨
    (∃ u, s.luns[h.lun.toNat]? = some u ∧ rejectCommand h x s = commandFail x (loadCommand h s)) := by
  have e : rejectCommand h x s =
      match s.luns[h.lun.toNat]? with
      | none => commandFail .invalidFieldInCbw (loadCommand h s)
      | some _ => commandFail x (loadCommand h s) := rfl
  cases hu : s.luns[h.lun.toNat]? with
  | none => rw [hu] at e; exact .inl ⟨rfl, e⟩
  | some u => rw [hu] at e; exact .inr ⟨u, rfl, e⟩

/-! ### Data steps -/

/-- What a device→host step that answers a next state did: it failed, or it committed the chunk (R181). -/
theorem sendChunk_next (n : Nat) (chunk : Option (List Byte)) (s t : State)
    (h : sendChunk n chunk s = .next t) :
    (∃ env, t = xferFail { s with env := env }) ∨
    (∃ bytes env, chunk = some bytes ∧
      t = advanceXfer n { s with txq := s.txq ++ [bytes],
                                 trace := s.trace ++ [.pipeCommit bytes], env := env }) := by
  unfold sendChunk pipeAcquireTx at h
  by_cases ha : s.nextAcquire = .buffer
  · simp only [ha, decide_true] at h
    cases chunk with
    | none => cases h
    | some bytes =>
      rcases pipeCommit_cases bytes (drawnAcquire s) with ⟨-, hc⟩ | ⟨-, hc⟩
      · simp only [hc] at h
        injection h with h
        exact .inr ⟨bytes, _, rfl, h.symm⟩
      · simp only [hc] at h
        injection h with h
        exact .inl ⟨_, h.symm⟩
  · simp only [ha, decide_false] at h
    injection h with h
    exact .inl ⟨_, h.symm⟩

/-- What a payload step that answers a next state did: it failed with the buffer lost, or it stored the head
buffer (R253). -/
theorem receivePayload_next (pos remaining : Nat) (s t : State)
    (h : receivePayload pos remaining s = .next t) :
    (∃ env, t = xferFail { s with rxq := s.rxq.tail, env := env }) ∨
    (∃ b u env, s.rxq.head? = some b ∧ b.length ≤ remaining ∧ s.luns[s.ctx.lunSel.toNat]? = some u ∧
      pos + b.length ≤ u.capacity ∧
      t = advanceXfer b.length
        { s with
          rxq := s.rxq.tail
          luns := s.luns.modify s.ctx.lunSel.toNat fun u => { u with store := u.store.writeRange pos b }
          trace := s.trace ++ [.memWrite s.ctx.lunSel.toNat pos b] ++ [.pipeDiscard]
          env := env }) := by
  unfold receivePayload at h
  rcases pipeAcquireRx_cases s with ⟨b, -, hb, he⟩ | ⟨-, he⟩
  · simp only [he] at h
    unfold storePayload at h
    split at h
    · cases h
    · rename_i hle
      split at h
      · cases h
      · rename_i w hw
        obtain ⟨u, hu, hcap, rfl⟩ := memWrite_eq_some _ _ _ _ _ hw
        injection h with h
        exact .inr ⟨b, u, _, hb, Nat.le_of_not_lt hle, hu, hcap, h.symm⟩
  · simp only [he] at h
    injection h with h
    exact .inl ⟨_, h.symm⟩

/-! ### Reception -/

/-- A command decoded from a CBW is dispatched to its row's meaning. -/
theorem dispatchCommand_eq_exec (i : Instr) (s : State) (h : i.format = .cbw) :
    dispatchCommand i s = exec i s := by
  cases i <;> first | rfl | cases h

/-- The CBW decoder answers commands only (R102). -/
theorem decodeCbw_format (c : Config) (b : List Byte) (i : Instr) (h : decodeCbw c b = .ok i) :
    i.format = .cbw := by
  unfold decodeCbw at h
  split at h
  · split at h
    · injection h with h
      subst h
      unfold decodeAcceptedCbw decodeCommand decodeInquiry
      dsimp only
      repeat' split
      all_goals rfl
    · cases h
  · cases h

/-- What consuming an RX buffer as a CBW leads to (R151): a phase error or an accepted command. -/
theorem parseCbw_next (b : Buffer) (s t : State) (h : parseCbw b s = .next t) :
    t = raisePhaseError s ∨
    (∃ i, decodeCbw s.cfg b = .ok i ∧ i.format = .cbw ∧ exec i (acceptCbw b s) = .next t) := by
  unfold parseCbw at h
  split at h
  · rename_i i hi
    have hf := decodeCbw_format _ _ _ hi
    exact .inr ⟨i, hi, hf, by rw [← dispatchCommand_eq_exec i _ hf]; exact h⟩
  · cases h
  all_goals exact .inl (by injection h with h; exact h.symm)

/-! ### The worker -/

/-- What the worker can take: an enabled internal step, or the head event (R301). -/
theorem workerStep_eq_some (pick : WorkerPick) (s : State) (i : Instr) (t : State)
    (h : workerStep pick s = some (i, t)) :
    (internalStep s = some i ∧ t = s) ∨
    (∃ e q, s.evq = e :: q ∧ i = instrOfEvent e s ∧ t = { s with evq := q }) := by
  unfold workerStep takeEvent at h
  cases hi : internalStep s <;> cases he : s.evq <;> simp only [hi, he] at h
  · cases h
  · injection h with h
    injection h with h1 h2
    exact .inr ⟨_, _, rfl, h1.symm, h2.symm⟩
  · injection h with h
    injection h with h1 h2
    exact .inl ⟨by rw [h1], h2.symm⟩
  · cases pick
    · injection h with h
      injection h with h1 h2
      exact .inr ⟨_, _, rfl, h1.symm, h2.symm⟩
    · injection h with h
      injection h with h1 h2
      exact .inl ⟨by rw [h1], h2.symm⟩

end Sys2Proof.Machine
end

