-- ==== Sys2Proof/Laws/Commands.lean ====
section
/-! SUPPORT. What each test of the dispatcher, each pipe draw and each data step leads to, in the terms of
Safety; what a received buffer can lead to. Later proofs cite these instead of unfolding a meaning. -/

namespace Sys2Proof.Machine

/-! ### Draws -/

theorem drawnAcquire_eq (s : State) : drawnAcquire s = { s with env := s.env.drawn 1 0 1 } := by
  simp [drawnAcquire, Env.drawn]

theorem drawnCommit_eq (s : State) : drawnCommit s = { s with env := s.env.drawn 0 1 1 } := by
  simp [drawnCommit, Env.drawn]

theorem drawnTag_eq (s : State) : drawnTag s = { s with env := s.env.drawn 0 0 1 } := by
  simp [drawnTag, Env.drawn]

theorem Env.drawn_drawn (a b c a' b' c' : Nat) (e : Env) :
    (e.drawn a b c).drawn a' b' c' = e.drawn (a + a') (b + b') (c + c') := by
  simp [Env.drawn, List.drop_drop, Nat.add_assoc]

/-- The commit drawn after one acquire. -/
theorem nextCommit_drawnAcquire (s : State) : (drawnAcquire s).nextCommit = s.commitAfter 1 := rfl

theorem nextAcquire_of_listed (s : State) (d : AcquireDraw) (rest : List AcquireDraw)
    (h : s.env.acquires = d :: rest) : s.nextAcquire = d := by
  unfold State.nextAcquire
  rw [h]

theorem commitAfter_of_listed (s : State) (d : CommitDraw) (rest : List CommitDraw) (n : Nat)
    (h : s.env.commits = d :: rest) : s.commitAfter n = d := by
  simp [State.commitAfter, State.nextCommit, Env.drawn, h]

/-- An acquire on RX that returns the announced buffer (R131). -/
theorem pipeAcquireRx_buffer (s : State) (b : Buffer) (q : List Buffer) (ha : s.nextAcquire = .buffer)
    (hq : s.rxq = b :: q) :
    pipeAcquireRx s = (some b, { s with rxq := q, env := s.env.drawn 1 0 1 }) := by
  rcases pipeAcquireRx_cases s with ⟨b', -, h, e⟩ | ⟨h, -⟩
  · rw [hq] at h
    injection h with h
    subst h
    rw [e, hq, drawnAcquire_eq]
    rfl
  · rcases h with h | h
    · exact absurd ha h
    · rw [hq] at h
      cases h

/-- An acquire on RX that fails loses the announced buffer (R131). -/
theorem pipeAcquireRx_lost (s : State) (ha : s.nextAcquire ≠ .buffer) :
    pipeAcquireRx s = (none, { s with rxq := s.rxq.tail, env := s.env.drawn 1 0 1 }) := by
  rcases pipeAcquireRx_cases s with ⟨b', h, -, e⟩ | ⟨-, e⟩
  · exact absurd h ha
  · rw [e, drawnAcquire_eq]

/-! ### LUN records -/

theorem modify_of_some (l : List Lun) (n : Nat) (f : Lun → Lun) (u : Lun) (h : l[n]? = some u) :
    l.modify n f = l.set n (f u) := by
  induction l generalizing n with
  | nil => simp at h
  | cons a l ih =>
    cases n with
    | zero =>
      simp at h
      subst h
      rfl
    | succ n =>
      simp at h
      simp [ih n h]

theorem modify_of_none (l : List Lun) (n : Nat) (f : Lun → Lun) (h : l[n]? = none) : l.modify n f = l := by
  induction l generalizing n with
  | nil => simp
  | cons a l ih =>
    cases n with
    | zero => simp at h
    | succ n =>
      simp only [List.getElem?_cons_succ] at h
      simp [ih n h]

theorem modifyLun_of_some (s : State) (l : Nat) (f : Lun → Lun) (u : Lun) (h : s.luns[l]? = some u) :
    s.modifyLun l f = s.withLun l (f u) := by
  rw [State.modifyLun, State.withLun, modify_of_some _ _ _ _ h]

/-! ### Response blocks -/

/-- A response has the configured length, whatever its bytes are (R180). -/
@[simp] theorem responseOf_length (n : Nat) (layout : List Byte) (s : State) :
    (responseOf n layout s).length = n := by
  unfold responseOf
  split
  · assumption
  · simp

/-- A response of the layout's length is the layout. -/
theorem responseOf_layout (n : Nat) (layout : List Byte) (s : State) (h : layout.length = n) :
    responseOf n layout s = layout := if_pos h

/-- What REQUEST SENSE, READ CAPACITY and the like set up for a command that passes every test. -/
theorem setupResp_loaded (h : CbwHeader) (bytes : List Byte) (s : State) :
    setupResp bytes (loadCommand h s) = s.withCommand h h.xferLen .ok (.resp bytes 0 bytes.length) := rfl

/-! ### The tests of the dispatcher -/

/-- Dispatch step 3 is the policy's test of the declared length and direction (R174, R175). -/
theorem lengthMatches_iff (p : Policy) (h : CbwHeader) (s : State) :
    lengthMatches p (loadCommand h s).ctx = true ↔ p.accepts h := by
  obtain ⟨dp, m, st⟩ := p
  cases dp with
  | none =>
    show decide (h.xferLen = 0) = true ↔ h.xferLen = 0
    exact decide_eq_true_iff
  | some d =>
    show ((decide (h.xferLen ≠ 0) && decide (h.dir = d.dir)) && decide (h.xferLen.toNat = d.len)) = true ↔
      (h.xferLen ≠ 0 ∧ h.dir = d.dir ∧ h.xferLen.toNat = d.len)
    simp only [Bool.and_eq_true, decide_eq_true_eq, and_assoc]

/-- Dispatch step 4 passes exactly a ready unit (R176). -/
theorem notReady_iff (p : Policy) (u : Lun) : notReady p u = false ↔ p.ready u := by
  obtain ⟨dp, m, st⟩ := p
  obtain ⟨bs, bc, mp, sp, ls, sto⟩ := u
  cases m <;> cases st <;> cases mp <;> cases sp <;> simp [notReady, Policy.ready]

/-- The failure of a command on a LUN that exists (R177). -/
theorem commandFail_loaded (x : Sense) (h : CbwHeader) (s : State) (u : Lun)
    (hu : s.luns[h.lun.toNat]? = some u) :
    commandFail x (loadCommand h s) =
      (s.withCommand h h.xferLen .failed .none).withLun h.lun.toNat { u with lastSense := x } := by
  have := modify_of_some s.luns h.lun.toNat (fun u => { u with lastSense := x }) u hu
  simp [commandFail, recordSense, State.modifyLun, loadCommand, State.withCommand, State.withLun, this]

/-- The failure of a command on a LUN that does not exist (R177). -/
theorem commandFail_loaded_absent (x : Sense) (h : CbwHeader) (s : State)
    (hu : s.luns[h.lun.toNat]? = none) :
    commandFail x (loadCommand h s) = s.withCommand h h.xferLen .failed .none := by
  have := modify_of_none s.luns h.lun.toNat (fun u => { u with lastSense := x }) hu
  simp [commandFail, recordSense, State.modifyLun, loadCommand, State.withCommand, this]

/-- A data-phase failure on the selected LUN (R183). -/
theorem xferFail_eq (s : State) (u : Lun) (hu : s.luns[s.ctx.lunSel.toNat]? = some u) :
    xferFail s =
      ({ s with ctx := { s.ctx with status := .failed, xfer := .none } } : State).withLun
        s.ctx.lunSel.toNat { u with lastSense := .crcError } := by
  have := modify_of_some s.luns s.ctx.lunSel.toNat (fun u => { u with lastSense := .crcError }) u hu
  simp [xferFail, commandFail, recordSense, State.modifyLun, State.withLun, this]

section run

variable (h : CbwHeader) (p : Lun → Policy) (f : Lun → State → State) (s : State)

theorem runCommand_absent (hu : s.luns[h.lun.toNat]? = none) :
    runCommand h p f s = s.withCommand h h.xferLen .failed .none := by
  rcases runCommand_cases h p f s with ⟨-, e⟩ | ⟨u, h', -⟩
  · rw [e, commandFail_loaded_absent _ _ _ hu]
  · rw [hu] at h'
    cases h'

theorem runCommand_mismatch (u : Lun) (hu : s.luns[h.lun.toNat]? = some u) (ha : ¬ (p u).accepts h) :
    runCommand h p f s =
      (s.withCommand h h.xferLen .failed .none).withLun h.lun.toNat
        { u with lastSense := .invalidParameter } := by
  rcases runCommand_cases h p f s with ⟨h', e⟩ | ⟨u', h', ⟨-, e⟩ | ⟨hm, -, e⟩ | ⟨hm, -, e⟩⟩
  · rw [hu] at h'
    cases h'
  · rw [e]
    exact commandFail_loaded _ _ _ _ hu
  all_goals
    rw [hu] at h'
    injection h' with h'
    subst h'
    exact absurd ((lengthMatches_iff _ _ _).mp hm) ha

theorem runCommand_notReady (u : Lun) (hu : s.luns[h.lun.toNat]? = some u) (ha : (p u).accepts h)
    (hr : ¬ (p u).ready u) :
    runCommand h p f s =
      (s.withCommand h h.xferLen .failed .none).withLun h.lun.toNat
        { u with lastSense := notReadySense u } := by
  rcases runCommand_cases h p f s with ⟨h', e⟩ | ⟨u', h', ⟨hm, e⟩ | ⟨hm, -, e⟩ | ⟨hm, hn, e⟩⟩
  · rw [hu] at h'
    cases h'
  all_goals
    rw [hu] at h'
    injection h' with h'
    subst h'
  · rw [(lengthMatches_iff _ _ _).mpr ha] at hm
    cases hm
  · rw [e]
    exact commandFail_loaded _ _ _ _ hu
  · exact absurd ((notReady_iff _ _).mp hn) hr

theorem runCommand_handler (u : Lun) (hu : s.luns[h.lun.toNat]? = some u) (ha : (p u).accepts h)
    (hr : (p u).ready u) : runCommand h p f s = f u (loadCommand h s) := by
  rcases runCommand_cases h p f s with ⟨h', e⟩ | ⟨u', h', ⟨hm, e⟩ | ⟨hm, hn, e⟩ | ⟨hm, hn, e⟩⟩
  · rw [hu] at h'
    cases h'
  all_goals
    rw [hu] at h'
    injection h' with h'
    subst h'
  · rw [(lengthMatches_iff _ _ _).mpr ha] at hm
    cases hm
  · rw [(notReady_iff _ _).mpr hr] at hn
    cases hn
  · exact e

end run

/-- The state a command leaves, but for its status, its data phase and the LUN records. -/
def CommandFrame (h : CbwHeader) (s t : State) : Prop :=
  t = { s.withCommand h h.xferLen t.ctx.status t.ctx.xfer with luns := t.luns }

/-- A command writes its operands, the residue, the status, the data phase and LUN records, nothing else. -/
theorem command_frame (i : Instr) (s t : State) (h : CbwHeader) (hi : i.header = some h)
    (he : exec i s = .next t) : CommandFrame h s t := by
  have fl : ∀ x, CommandFrame h s (commandFail x (loadCommand h s)) := fun x => rfl
  have hrun : ∀ p f, (∀ u, CommandFrame h s (f u (loadCommand h s))) →
      CommandFrame h s (runCommand h p f s) := by
    intro p f hf
    rcases runCommand_cases h p f s with ⟨-, e⟩ | ⟨u, -, ⟨-, e⟩ | ⟨-, -, e⟩ | ⟨-, -, e⟩⟩ <;> rw [e]
    · exact fl _
    · exact fl _
    · exact fl _
    · exact hf u
  have hrej : ∀ x, CommandFrame h s (rejectCommand h x s) := by
    intro x
    rcases rejectCommand_cases h x s with ⟨-, e⟩ | ⟨u, -, e⟩ <;> rw [e] <;> exact fl _
  cases i <;> try (cases hi; done)
  all_goals
    injection hi with hi
    subst hi
    injection he with he
    subst he
    first
      | exact hrej _
      | (refine hrun _ _ ?_; intro u; rfl)
      | (refine hrun _ _ ?_; intro u; split <;> rfl)

/-- The SCSI commands are the instructions with a CBW header. -/
theorem format_eq_cbw_iff (i : Instr) : i.format = .cbw ↔ ∃ h, i.header = some h := by
  cases i <;> simp [Instr.format, Instr.header]

/-! ### Data steps -/

theorem sendChunk_sent (n : Nat) (chunk : List Byte) (s : State) (ha : s.nextAcquire = .buffer)
    (hc : s.commitAfter 1 = .ok) :
    sendChunk n (some chunk) s = .next (advanceXfer n
      { s with txq := s.txq ++ [chunk], trace := s.trace ++ [.pipeCommit chunk],
               env := s.env.drawn 1 1 2 }) := by
  unfold sendChunk pipeAcquireTx
  simp only [ha, decide_true]
  rcases pipeCommit_cases chunk (drawnAcquire s) with ⟨-, h⟩ | ⟨h, -⟩
  · rw [h]
    simp only [drawnAcquire_eq, drawnCommit_eq, Env.drawn_drawn]
  · rw [nextCommit_drawnAcquire, hc] at h
    cases h

theorem sendChunk_acquire_failed (n : Nat) (chunk : Option (List Byte)) (s : State)
    (ha : s.nextAcquire ≠ .buffer) :
    sendChunk n chunk s = .next (xferFail { s with env := s.env.drawn 1 0 1 }) := by
  unfold sendChunk pipeAcquireTx
  simp only [ha, decide_false, drawnAcquire_eq]

theorem sendChunk_commit_failed (n : Nat) (chunk : List Byte) (s : State) (ha : s.nextAcquire = .buffer)
    (hc : s.commitAfter 1 = .fail) :
    sendChunk n (some chunk) s = .next (xferFail { s with env := s.env.drawn 1 1 2 }) := by
  unfold sendChunk pipeAcquireTx
  simp only [ha, decide_true]
  rcases pipeCommit_cases chunk (drawnAcquire s) with ⟨h, -⟩ | ⟨-, h⟩
  · rw [nextCommit_drawnAcquire, hc] at h
    cases h
  · rw [h]
    simp only [drawnAcquire_eq, drawnCommit_eq, Env.drawn_drawn]

theorem memRead_inside (s : State) (l a n : Nat) (u : Lun) (hu : s.luns[l]? = some u)
    (h : a + n ≤ u.blockSize * u.blockCount) : memRead l a n s = some (u.store.readRange a n) := by
  unfold memRead
  rw [hu]
  simp [Lun.capacity, h]

/-- Either row of the opcode table runs the payload step while a WRITE(10) waits (R150 case 4, R112). -/
theorem exec_rxReady_payload (i : Instr) (s : State) (pos remaining : Nat)
    (hi : i = .evRxReadyData ∨ i = .evRxReady) (hst : s.ctx.st = .dispatched)
    (hw : s.ctx.wedged = false) (hx : s.ctx.xfer = .wr pos remaining) (hq : s.rxq ≠ []) :
    exec i s = receivePayload pos remaining s := by
  have hq' : s.rxq.isEmpty = false := by simpa using hq
  rcases hi with rfl | rfl
  · have e : exec .evRxReadyData s = execEvRxReadyData s := rfl
    rw [e]
    unfold execEvRxReadyData
    simp [hq', hw, hst, hx]
  · have e : exec .evRxReady s = execEvRxReady s := rfl
    rw [e]
    unfold execEvRxReady
    simp [hq', hw, hst, hx]

/-- EV_RX_READY with an acquired buffer in `CBW_WAIT` parses it (R150 case 3, R151). -/
theorem exec_rxReady_parse (s : State) (b : Buffer) (q : List Buffer) (hst : s.ctx.st = .cbwWait)
    (hpe : s.ctx.phaseError = false) (hw : s.ctx.wedged = false) (hq : s.rxq = b :: q)
    (ha : s.nextAcquire = .buffer) :
    exec .evRxReady s =
      parseCbw b { s with rxq := q, env := s.env.drawn 1 0 1, trace := s.trace ++ [.pipeDiscard] } := by
  have e : exec .evRxReady s = execEvRxReady s := rfl
  rw [e]
  unfold execEvRxReady
  simp only [hq, hw, hst, hpe]
  simp
  unfold receiveCbw
  rw [pipeAcquireRx_buffer s b q ha hq]
  rfl

/-! ### What a received buffer can lead to -/

/-- What consuming a buffer as a CBW leads to, told by its framing (R93, R151). -/
theorem parseCbw_next_framed (b : Buffer) (s t : State) (h : parseCbw b s = .next t) :
    (t = raisePhaseError s ∧ cbwValid b = false) ∨
    (∃ i, decodeCbw s.cfg b = .ok i ∧ i.format = .cbw ∧ exec i (acceptCbw b s) = .next t) := by
  unfold parseCbw at h
  split at h
  · rename_i i hi
    have hf := decodeCbw_format _ _ _ hi
    exact .inr ⟨i, hi, hf, by rw [← dispatchCommand_eq_exec i _ hf]; exact h⟩
  · cases h
  all_goals
    rename_i hd
    injection h with h
    refine .inl ⟨h.symm, ?_⟩
    unfold decodeCbw at hd
    split at hd
    · split at hd <;> cases hd
    · rename_i hv
      simpa using hv

/-- Everything a step of EV_RX_READY or EV_RX_READY.DATA can do, when it answers a next state (R150). -/
inductive RxOutcome (s : State) : State → Prop
  /-- The notification is stale. -/
  | same : RxOutcome s s
  /-- The acquire failed in `CBW_WAIT`: the buffer is lost. -/
  | lost (env : Env) : s.ctx.st = .cbwWait → s.ctx.phaseError = false →
      RxOutcome s { s with rxq := s.rxq.tail, env := env }
  /-- An invalid CBW, its CSW queued. -/
  | phaseError (b csw : Buffer) (env : Env) : s.ctx.st = .cbwWait → s.ctx.phaseError = false →
      s.rxq.head? = some b → cbwValid b = false →
      RxOutcome s { s with ctx := { phaseErrorCtx s with st := .status }
                           rxq := s.rxq.tail
                           txq := s.txq ++ [csw]
                           trace := s.trace ++ [.pipeDiscard] ++ [.pipeCommit csw]
                           env := env }
  /-- An invalid CBW whose CSW could not be queued. -/
  | stuck (b : Buffer) (env : Env) : s.ctx.st = .cbwWait → s.ctx.phaseError = false →
      s.rxq.head? = some b → cbwValid b = false →
      RxOutcome s { s with ctx := { phaseErrorCtx s with wedged := true }
                           rxq := s.rxq.tail
                           trace := s.trace ++ [.pipeDiscard]
                           env := env }
  /-- A valid CBW: accepted, and its command dispatched. -/
  | command (b : Buffer) (i : Instr) (env : Env) (t : State) : s.ctx.st = .cbwWait →
      s.ctx.phaseError = false → s.rxq.head? = some b → decodeCbw s.cfg b = .ok i → i.format = .cbw →
      exec i { s with ctx := { s.ctx with cbw := b, busy := true, st := .dispatched }
                      rxq := s.rxq.tail
                      trace := s.trace ++ [.pipeDiscard] ++ [.lpmAllow false]
                      env := env } = .next t →
      RxOutcome s t
  /-- The acquire of a payload buffer failed. -/
  | payloadLost (env : Env) : s.ctx.st = .dispatched → s.ctx.xfer.isWrite = true →
      RxOutcome s (xferFail { s with rxq := s.rxq.tail, env := env })
  /-- A payload buffer is stored. -/
  | payload (pos remaining : Nat) (b : Buffer) (env : Env) : s.ctx.st = .dispatched →
      s.ctx.xfer = .wr pos remaining → s.rxq.head? = some b →
      RxOutcome s (advanceXfer b.length
        { s with
          rxq := s.rxq.tail
          luns := s.luns.modify s.ctx.lunSel.toNat fun u => { u with store := u.store.writeRange pos b }
          trace := s.trace ++ [.memWrite s.ctx.lunSel.toNat pos b] ++ [.pipeDiscard]
          env := env })

theorem receivePayload_outcome (s t : State) (pos remaining : Nat) (hst : s.ctx.st = .dispatched)
    (hx : s.ctx.xfer = .wr pos remaining) (h : receivePayload pos remaining s = .next t) :
    RxOutcome s t := by
  rcases receivePayload_next _ _ _ _ h with ⟨env, e⟩ | ⟨b, u, env, hb, -, -, -, e⟩
  · rw [e]
    exact .payloadLost _ hst (by simp [hx, Xfer.isWrite])
  · rw [e]
    exact .payload pos remaining b env hst hx hb

theorem exec_rxReady_outcome (s t : State) (i : Instr) (hi : i = .evRxReady ∨ i = .evRxReadyData)
    (h : exec i s = .next t) : RxOutcome s t := by
  rcases hi with rfl | rfl
  · have h : execEvRxReady s = .next t := h
    unfold execEvRxReady at h
    split at h
    · injection h with h
      subst h
      exact .same
    split at h
    · rename_i hc
      simp at hc
      have h1 : s.ctx.st = .cbwWait := hc.1
      unfold receiveCbw at h
      rcases pipeAcquireRx_cases s with ⟨b, -, hb, he⟩ | ⟨-, he⟩ <;> rw [he] at h <;> dsimp only at h
      · rcases parseCbw_next_framed _ _ _ h with ⟨e, hv⟩ | ⟨i, hd, hf, hx⟩
        · rcases raisePhaseError_cases (pipeDiscard { drawnAcquire s with rxq := s.rxq.tail }) with
            ⟨csw, env, -, e'⟩ | ⟨env, e'⟩
          · rw [e, e']
            exact .phaseError b csw env h1 hc.2 hb hv
          · rw [e, e']
            exact .stuck b env h1 hc.2 hb hv
        · exact .command b i _ t h1 hc.2 hb hd hf hx
      · injection h with h
        subst h
        exact .lost _ h1 hc.2
    split at h
    · rename_i hst
      split at h
      · rename_i hx
        exact receivePayload_outcome _ _ _ _ hst hx h
      all_goals
        injection h with h
        subst h
        exact .same
    · injection h with h
      subst h
      exact .same
  · have h : execEvRxReadyData s = .next t := h
    unfold execEvRxReadyData at h
    split at h
    · injection h with h
      subst h
      exact .same
    split at h
    · rename_i hst
      split at h
      · rename_i hx
        exact receivePayload_outcome _ _ _ _ hst hx h
      all_goals
        injection h with h
        subst h
        exact .same
    · injection h with h
      subst h
      exact .same

/-- Everything DataStepTx can do, when it answers a next state (R181, R183). -/
inductive DataStepOutcome (s : State) : State → Prop
  /-- No device→host data phase is under way. -/
  | same : DataStepOutcome s s
  /-- The acquire or the commit failed. -/
  | failed (env : Env) : s.ctx.st = .dispatched → s.ctx.xfer ≠ .none →
      DataStepOutcome s (xferFail { s with env := env })
  /-- A chunk is committed and counted. -/
  | sent (n : Nat) (bytes : Buffer) (env : Env) : s.ctx.st = .dispatched → s.ctx.xfer ≠ .none →
      DataStepOutcome s (advanceXfer n
        { s with txq := s.txq ++ [bytes], trace := s.trace ++ [.pipeCommit bytes], env := env })

theorem exec_dataStepTx_outcome (s t : State) (h : exec .dataStepTx s = .next t) :
    DataStepOutcome s t := by
  have h : execDataStepTx s = .next t := h
  unfold execDataStepTx at h
  split at h
  · rename_i hst
    split at h
    · injection h with h
      subst h
      exact .same
    · injection h with h
      subst h
      exact .same
    all_goals
      rename_i hx
      rcases sendChunk_next _ _ _ _ h with ⟨env, e⟩ | ⟨bs, env, -, e⟩
      · rw [e]
        exact .failed _ hst (by simp [hx])
      · rw [e]
        exact .sent _ _ _ hst (by simp [hx])
  · injection h with h
    subst h
    exact .same

end Sys2Proof.Machine
end

