-- ==== Sys2Proof/Laws/PerInstr.lean ====
section
/-! SUPPORT. Statements about every instruction as syntax, one lemma per constructor. -/

namespace Sys2Proof.Laws

/-- The length of an encoding of each format (R90, R91, R105): a CBW is 31 bytes, a SETUP packet 8, and an
event has no binary encoding. -/
def formatLength : Format → Nat
  | .cbw => 31
  | .csw => 13
  | .ctrl => 8
  | .event => 0

/-- The canonical encoding has the length of its format. -/
def EncodeLength.Statement (i : Instr) : Prop := ∀ c : Config, (encode c i).length = formatLength i.format

theorem EncodeLength.testUnitReady (h : CbwHeader) : EncodeLength.Statement (.testUnitReady h) :=
  fun _ => rfl

theorem EncodeLength.requestSense (h : CbwHeader) : EncodeLength.Statement (.requestSense h) :=
  fun _ => rfl

theorem EncodeLength.inquiryVpdSupportedPages (h : CbwHeader) : EncodeLength.Statement (.inquiryVpdSupportedPages h) :=
  fun _ => rfl

theorem EncodeLength.inquiryVpdSerialNumber (h : CbwHeader) : EncodeLength.Statement (.inquiryVpdSerialNumber h) :=
  fun _ => rfl

theorem EncodeLength.inquiryVpdDeviceId (h : CbwHeader) : EncodeLength.Statement (.inquiryVpdDeviceId h) :=
  fun _ => rfl

theorem EncodeLength.inquiryVpdBlockLimits (h : CbwHeader) : EncodeLength.Statement (.inquiryVpdBlockLimits h) :=
  fun _ => rfl

theorem EncodeLength.inquiryVpdUnsupported (h : CbwHeader) (page : Byte) : EncodeLength.Statement (.inquiryVpdUnsupported h page) :=
  fun _ => rfl

theorem EncodeLength.inquiryStd (h : CbwHeader) : EncodeLength.Statement (.inquiryStd h) :=
  fun _ => rfl

theorem EncodeLength.modeSense6 (h : CbwHeader) : EncodeLength.Statement (.modeSense6 h) :=
  fun _ => rfl

theorem EncodeLength.startStopUnit (h : CbwHeader) (loej start : Bool) : EncodeLength.Statement (.startStopUnit h loej start) :=
  fun _ => rfl

theorem EncodeLength.preventAllow (h : CbwHeader) : EncodeLength.Statement (.preventAllow h) :=
  fun _ => rfl

theorem EncodeLength.readFormatCapacity (h : CbwHeader) : EncodeLength.Statement (.readFormatCapacity h) :=
  fun _ => rfl

theorem EncodeLength.readCapacity (h : CbwHeader) : EncodeLength.Statement (.readCapacity h) :=
  fun _ => rfl

theorem EncodeLength.read10 (h : CbwHeader) (lba : Word) (count : BitVec 16) : EncodeLength.Statement (.read10 h lba count) :=
  fun _ => rfl

theorem EncodeLength.write10 (h : CbwHeader) (lba : Word) (count : BitVec 16) : EncodeLength.Statement (.write10 h lba count) :=
  fun _ => rfl

theorem EncodeLength.verify (h : CbwHeader) : EncodeLength.Statement (.verify h) :=
  fun _ => rfl

theorem EncodeLength.unknown (h : CbwHeader) (opcode : Byte) : EncodeLength.Statement (.unknown h opcode) :=
  fun _ => rfl

theorem EncodeLength.clearFeatureEndpointHalt (ep : Endpoint) : EncodeLength.Statement (.clearFeatureEndpointHalt ep) :=
  fun _ => rfl

theorem EncodeLength.getMaxLun : EncodeLength.Statement .getMaxLun :=
  fun _ => rfl

theorem EncodeLength.botReset : EncodeLength.Statement .botReset :=
  fun _ => rfl

theorem EncodeLength.evConfig : EncodeLength.Statement .evConfig :=
  fun _ => rfl

theorem EncodeLength.evBusReset : EncodeLength.Statement .evBusReset :=
  fun _ => rfl

theorem EncodeLength.evDisconnect : EncodeLength.Statement .evDisconnect :=
  fun _ => rfl

theorem EncodeLength.evSuspend : EncodeLength.Statement .evSuspend :=
  fun _ => rfl

theorem EncodeLength.evRxReady : EncodeLength.Statement .evRxReady :=
  fun _ => rfl

theorem EncodeLength.evRxReadyData : EncodeLength.Statement .evRxReadyData :=
  fun _ => rfl

theorem EncodeLength.evTxDrained : EncodeLength.Statement .evTxDrained :=
  fun _ => rfl

theorem EncodeLength.evCtrl (req : CtrlRequest) : EncodeLength.Statement (.evCtrl req) :=
  fun _ => rfl

theorem EncodeLength.evMedia (l : Nat) (present : Bool) : EncodeLength.Statement (.evMedia l present) :=
  fun _ => rfl

theorem EncodeLength.dataStepTx : EncodeLength.Statement .dataStepTx :=
  fun _ => rfl

theorem EncodeLength.dispatchDone : EncodeLength.Statement .dispatchDone :=
  fun _ => rfl

end Sys2Proof.Laws
end

