-- ==== Sys2Proof/Tests/Slice0.lean ====
section
/-! SUPPORT. The author's tests: each check of WellFormed with a term it refuses, each constructor's decoding
from bytes written out from `spec/30_encoding.md` or taken from `spec/95_test_vectors.md`, single steps with
the expected values of those vectors, and for each statement of `Certificates/Slice0/Obligations.lean` with
hypotheses a concrete state and operands that meet them together. -/

namespace Sys2Proof.Tests

open Sys2Proof.Machine

/-! ### Helpers -/

/-- A CBW from its first bytes, the rest 00. -/
def cbw (bytes : List Byte) : List Byte := bytes ++ List.replicate (31 - bytes.length) 0x00

/-- Whether the decoder reads the instruction from a CBW under the default configuration. -/
def reads (bytes : List Byte) (i : Instr) : Bool :=
  match decodeCbw Config.default bytes with
  | .ok j => j = i
  | .error _ => false

/-- Whether the SETUP decoder reads the instruction. -/
def readsSetup (bytes : List Byte) (i : Instr) : Bool :=
  match decodeSetup Config.default bytes with
  | .ok j => j = i
  | .error _ => false

/-- Whether the decoder refuses a CBW for this reason. -/
def rejects (bytes : List Byte) (e : DecodeError) : Bool :=
  match decodeCbw Config.default bytes with
  | .ok _ => false
  | .error e' => e' = e

/-- Whether a step answers a next state with the property. -/
def after (o : Result) (p : State → Bool) : Bool :=
  match o with
  | .next t => p t
  | .fault _ => false
  | .refused _ => false

/-- Whether a step answers this refusal. -/
def refusedWith (o : Result) (r : Refusal) : Bool :=
  match o with
  | .next _ => false
  | .fault _ => false
  | .refused r' => r' = r

/-- A header with tag `t 00 00 00`. -/
def hdr (t : Byte) (len : Word) (dir : Dir) (lun : BitVec 4) : CbwHeader := ⟨⟨t, 0, 0, 0⟩, len, dir, lun⟩

/-- The LUN of the test vectors. -/
def lun0 : Lun := ⟨512, 2048, true, false, .ok, []⟩

/-- A LUN of eight blocks of four bytes. -/
def small : Lun := ⟨4, 8, true, false, .ok, [(0, 0x11), (7, 0x22)]⟩

/-- An environment whose pipe primitives succeed four times. -/
def goodEnv (turns : List Turn) : Env :=
  ⟨turns, List.replicate 4 .buffer, List.replicate 4 .ok, 0⟩

/-- `READY` of the test vectors. -/
def ready : State :=
  { State.reset with
    ctx := { Ctx.powerOn with st := .cbwWait }
    luns := [lun0]
    env := goodEnv [] }

/-- A dispatched command on LUN 0 with a data phase. -/
def running (x : Xfer) (dir : Dir) (residue : Word) : State :=
  { ready with
    ctx := { ready.ctx with st := .dispatched, busy := true, tag := ⟨0x30, 1, 2, 3⟩, dir := dir,
                            xferLen := residue, residue := residue, xfer := x } }

/-- P-1 of the vectors: TEST UNIT READY. -/
def cbwTur : List Byte := cbw [0x55, 0x53, 0x42, 0x43, 0x10, 0, 0, 0, 0, 0, 0, 0, 0x00, 0x00, 0x06, 0x00]

/-! ### WellFormed refuses -/

theorem test_wf_unknown_of_known_opcode :
    wellFormed Config.default (.unknown (hdr 0 0 .dirOut 0) 0x28) = false := by decide

theorem test_wf_unsupported_of_supported_page :
    wellFormed Config.default (.inquiryVpdUnsupported (hdr 0 0 .dirIn 0) 0x83) = false := by decide

theorem test_wf_media_of_absent_lun : wellFormed Config.default (.evMedia 1 true) = false := by decide

theorem test_wf_request_without_rule :
    wellFormed Config.default (.evCtrl (.setFeatureHalt .tx)) = false ∧
      wellFormed Config.default (.evCtrl .getStatus) = false ∧
      wellFormed Config.default (.evCtrl .setInterface) = false ∧
      wellFormed Config.default (.evCtrl .getInterface) = false := by decide

theorem test_wf_accepts_neighbours :
    wellFormed Config.default (.unknown (hdr 0 0 .dirOut 0) 0x29) = true ∧
      wellFormed Config.default (.inquiryVpdUnsupported (hdr 0 0 .dirIn 0) 0x84) = true ∧
      wellFormed Config.default (.evMedia 0 true) = true ∧
      wellFormed Config.default (.evCtrl .botReset) = true := by decide

/-! ### Decoding, bytes from the vectors named -/

/-- P-1. -/
theorem test_decode_testUnitReady : reads cbwTur (.testUnitReady (hdr 0x10 0 .dirOut 0)) = true := by decide

/-- P-10: the length is little-endian. -/
theorem test_decode_header :
    reads (cbw [0x55, 0x53, 0x42, 0x43, 0x1B, 0, 0, 0, 0x04, 0x03, 0x02, 0x01, 0x80, 0x00, 0x06, 0x00])
      (.testUnitReady (hdr 0x1B 0x01020304 .dirIn 0)) = true := by decide

/-- P-6: flags 7F and lun byte F0. -/
theorem test_decode_ignores_bits :
    reads (cbw [0x55, 0x53, 0x42, 0x43, 0x10, 0, 0, 0, 0, 0, 0, 0, 0x7F, 0xF0, 0x06, 0x00])
      (.testUnitReady (hdr 0x10 0 .dirOut 0)) = true := by decide

/-- P-2 to P-5. -/
theorem test_decode_bad_framing :
    rejects (cbwTur.take 30) .badFraming = true ∧ rejects (cbwTur ++ [0x00]) .badFraming = true ∧
      rejects ([0x55, 0x53, 0x42, 0x53] ++ cbwTur.drop 4) .badFraming = true ∧
      rejects ([0x75, 0x53, 0x42, 0x43] ++ cbwTur.drop 4) .badFraming = true := by decide

/-- P-7 and P-8: `cbLength` 1 and 16 are accepted, 0 and 17 have no meaning. -/
theorem test_decode_cbLength :
    reads (cbwTur.set 14 0x01) (.testUnitReady (hdr 0x10 0 .dirOut 0)) = true ∧
      reads (cbwTur.set 14 0x10) (.testUnitReady (hdr 0x10 0 .dirOut 0)) = true ∧
      rejects (cbwTur.set 14 0x00) .badCbLength = true ∧
      rejects (cbwTur.set 14 0x11) .badCbLength = true := by decide

/-- F-12. -/
theorem test_decode_requestSense :
    reads (cbw [0x55, 0x53, 0x42, 0x43, 0x29, 0, 0, 0, 0x12, 0, 0, 0, 0x80, 0x00, 0x06,
      0x03, 0, 0, 0, 0x12]) (.requestSense (hdr 0x29 18 .dirIn 0)) = true := by decide

/-- F-5. -/
theorem test_decode_inquiryVpdSupportedPages :
    reads (cbw [0x55, 0x53, 0x42, 0x43, 0x23, 0, 0, 0, 0x08, 0, 0, 0, 0x80, 0x00, 0x06,
      0x12, 0x01, 0, 0, 0x08]) (.inquiryVpdSupportedPages (hdr 0x23 8 .dirIn 0)) = true := by decide

/-- F-8. -/
theorem test_decode_inquiryVpdSerialNumber :
    reads (cbw [0x55, 0x53, 0x42, 0x43, 0x26, 0, 0, 0, 0, 0, 0, 0, 0x80, 0x00, 0x06, 0x12, 0x01, 0x80])
      (.inquiryVpdSerialNumber (hdr 0x26 0 .dirIn 0)) = true := by decide

/-- R99: page 83. -/
theorem test_decode_inquiryVpdDeviceId :
    reads (cbw [0x55, 0x53, 0x42, 0x43, 0x26, 0, 0, 0, 0, 0, 0, 0, 0x80, 0x00, 0x06, 0x12, 0x01, 0x83])
      (.inquiryVpdDeviceId (hdr 0x26 0 .dirIn 0)) = true := by decide

/-- R99: page B0. -/
theorem test_decode_inquiryVpdBlockLimits :
    reads (cbw [0x55, 0x53, 0x42, 0x43, 0x26, 0, 0, 0, 0, 0, 0, 0, 0x80, 0x00, 0x06, 0x12, 0x01, 0xB0])
      (.inquiryVpdBlockLimits (hdr 0x26 0 .dirIn 0)) = true := by decide

/-- F-7. -/
theorem test_decode_inquiryVpdUnsupported :
    reads (cbw [0x55, 0x53, 0x42, 0x43, 0x25, 0, 0, 0, 0xFF, 0, 0, 0, 0x80, 0x00, 0x06,
      0x12, 0x01, 0xC0, 0, 0xFF]) (.inquiryVpdUnsupported (hdr 0x25 255 .dirIn 0) 0xC0) = true := by decide

/-- F-4: LUN 1; and with `evpd` 0 the page byte is not read. -/
theorem test_decode_inquiryStd :
    reads (cbw [0x55, 0x53, 0x42, 0x43, 0x2D, 0, 0, 0, 0x24, 0, 0, 0, 0x80, 0x01, 0x06,
      0x12, 0x00, 0x00, 0x00, 0x24]) (.inquiryStd (hdr 0x2D 36 .dirIn 1)) = true ∧
    reads (cbw [0x55, 0x53, 0x42, 0x43, 0x2D, 0, 0, 0, 0x24, 0, 0, 0, 0x80, 0x01, 0x06,
      0x12, 0xFE, 0x83, 0x00, 0x24]) (.inquiryStd (hdr 0x2D 36 .dirIn 1)) = true := by decide

/-- F-15. -/
theorem test_decode_modeSense6 :
    reads (cbw [0x55, 0x53, 0x42, 0x43, 0x2B, 0, 0, 0, 0x04, 0, 0, 0, 0x80, 0x00, 0x06,
      0x1A, 0, 0, 0, 0x04]) (.modeSense6 (hdr 0x2B 4 .dirIn 0)) = true := by decide

/-- S8-E. -/
theorem test_decode_startStopUnit :
    reads (cbw [0x55, 0x53, 0x42, 0x43, 0x14, 0, 0, 0, 0, 0, 0, 0, 0x00, 0x00, 0x06,
      0x1B, 0, 0, 0, 0x02]) (.startStopUnit (hdr 0x14 0 .dirOut 0) true false) = true ∧
    reads (cbw [0x55, 0x53, 0x42, 0x43, 0x15, 0, 0, 0, 0, 0, 0, 0, 0x00, 0x00, 0x06,
      0x1B, 0, 0, 0, 0x01]) (.startStopUnit (hdr 0x15 0 .dirOut 0) false true) = true := by decide

/-- N-2. -/
theorem test_decode_preventAllow :
    reads (cbw [0x55, 0x53, 0x42, 0x43, 0x13, 0, 0, 0, 0, 0, 0, 0, 0x00, 0x00, 0x06, 0x1E])
      (.preventAllow (hdr 0x13 0 .dirOut 0)) = true := by decide

/-- F-11. -/
theorem test_decode_readFormatCapacity :
    reads (cbw [0x55, 0x53, 0x42, 0x43, 0x28, 0, 0, 0, 0x0C, 0, 0, 0, 0x80, 0x00, 0x0A,
      0x23, 0, 0, 0, 0, 0, 0, 0, 0x0C]) (.readFormatCapacity (hdr 0x28 12 .dirIn 0)) = true := by decide

/-- F-9. -/
theorem test_decode_readCapacity :
    reads (cbw [0x55, 0x53, 0x42, 0x43, 0x27, 0, 0, 0, 0x08, 0, 0, 0, 0x80, 0x00, 0x0A, 0x25])
      (.readCapacity (hdr 0x27 8 .dirIn 0)) = true := by decide

/-- M-1 and M-3. -/
theorem test_decode_read10 :
    reads (cbw [0x55, 0x53, 0x42, 0x43, 0x31, 0, 0, 0, 0x00, 0x02, 0, 0, 0x80, 0x00, 0x0A,
      0x28, 0, 0x00, 0x00, 0x07, 0xFF, 0, 0x00, 0x01]) (.read10 (hdr 0x31 512 .dirIn 0) 2047 1) = true ∧
    reads (cbw [0x55, 0x53, 0x42, 0x43, 0x3B, 0, 0, 0, 0x00, 0x02, 0, 0, 0x80, 0x00, 0x0A,
      0x28, 0, 0xFF, 0xFF, 0xFF, 0xFF, 0, 0x00, 0x01])
      (.read10 (hdr 0x3B 512 .dirIn 0) 0xFFFFFFFF 1) = true := by decide

/-- M-8; and a block address and count with four and two different bytes (R100). -/
theorem test_decode_write10 :
    reads (cbw [0x55, 0x53, 0x42, 0x43, 0x3C, 0, 0, 0, 0x00, 0x04, 0, 0, 0x00, 0x00, 0x0A,
      0x2A, 0, 0x00, 0x00, 0x00, 0x02, 0, 0x00, 0x02]) (.write10 (hdr 0x3C 1024 .dirOut 0) 2 2) = true ∧
    reads (cbw [0x55, 0x53, 0x42, 0x43, 0x3C, 0, 0, 0, 0x00, 0x04, 0, 0, 0x00, 0x00, 0x0A,
      0x2A, 0, 0x12, 0x34, 0x56, 0x78, 0, 0xAB, 0xCD])
      (.write10 (hdr 0x3C 1024 .dirOut 0) 0x12345678 0xABCD) = true := by decide

/-- N-1. -/
theorem test_decode_verify :
    reads (cbw [0x55, 0x53, 0x42, 0x43, 0x12, 0, 0, 0, 0, 0, 0, 0, 0x00, 0x00, 0x0A, 0x2F])
      (.verify (hdr 0x12 0 .dirOut 0)) = true := by decide

/-- N-11. -/
theorem test_decode_unknown :
    reads (cbw [0x55, 0x53, 0x42, 0x43, 0x18, 0, 0, 0, 0, 0, 0, 0, 0x00, 0x00, 0x0C, 0xA0])
      (.unknown (hdr 0x18 0 .dirOut 0) 0xA0) = true := by decide

/-- R105, both directions. -/
theorem test_decode_clearFeatureEndpointHalt :
    readsSetup [0x02, 0x01, 0, 0, 0x02, 0, 0, 0] (.clearFeatureEndpointHalt .rx) = true ∧
      readsSetup [0x02, 0x01, 0, 0, 0x82, 0, 0, 0] (.clearFeatureEndpointHalt .tx) = true := by decide

/-- R105, interface 3. -/
theorem test_decode_getMaxLun : readsSetup [0xA1, 0xFE, 0, 0, 0x03, 0, 0x01, 0] .getMaxLun = true := by
  decide

/-- R105, interface 3. -/
theorem test_decode_botReset : readsSetup [0x21, 0xFF, 0, 0, 0x03, 0, 0, 0] .botReset = true := by decide

/-- R106, R112: the events have no word; the row each symbol is, EV_RX_READY told from EV_RX_READY.DATA by
the state. -/
theorem test_rows_of_events :
    instrOfEvent .config ready = .evConfig ∧ instrOfEvent .busReset ready = .evBusReset ∧
      instrOfEvent .disconnect ready = .evDisconnect ∧ instrOfEvent .suspend ready = .evSuspend ∧
      instrOfEvent .rxReady ready = .evRxReady ∧
      instrOfEvent .rxReady (running (.wr 0 4) .dirOut 4) = .evRxReadyData ∧
      instrOfEvent .txDrained ready = .evTxDrained ∧
      instrOfEvent (.ctrl .botReset) ready = .evCtrl .botReset ∧
      instrOfEvent (.media 0 true) ready = .evMedia 0 true := by decide

/-- R181, R185: the rows of the internal steps. -/
theorem test_rows_of_internal_steps :
    internalStep (running (.resp [0x01] 0 1) .dirIn 1) = some .dataStepTx ∧
      internalStep (running (.rd 0 4) .dirIn 4) = some .dataStepTx ∧
      internalStep (running .none .dirIn 0) = some .dispatchDone ∧
      internalStep (running (.wr 0 4) .dirOut 4) = none ∧ internalStep ready = none := by decide

/-! ### Single steps, expected values from the vectors named -/

/-- N-4. -/
theorem test_testUnitReady_no_medium :
    after (exec (.testUnitReady (hdr 0x10 0 .dirOut 0)) { ready with luns := [{ lun0 with mediaPresent := false }] })
      (fun t => t.ctx.status = .failed && (t.luns.map Lun.lastSense) = [.noMedia]) = true := by decide

/-- N-6: a pending MEDIA_CHANGED stays. -/
theorem test_testUnitReady_media_changed :
    after (exec (.testUnitReady (hdr 0x10 0 .dirOut 0))
        { ready with luns := [{ lun0 with mediaPresent := false, lastSense := .mediaChanged }] })
      (fun t => t.ctx.status = .failed && (t.luns.map Lun.lastSense) = [.mediaChanged]) = true := by decide

/-- N-5. -/
theorem test_verify_stopped :
    after (exec (.verify (hdr 0x12 0 .dirOut 0)) { ready with luns := [{ lun0 with stopped := true }] })
      (fun t => t.ctx.status = .failed && t.luns = [{ lun0 with stopped := true, lastSense := .noMedia }]) =
        true := by decide

/-- N-2. -/
theorem test_preventAllow :
    after (exec (.preventAllow (hdr 0x13 0 .dirOut 0)) ready)
      (fun t => t.ctx.status = .ok && t.ctx.residue = 0 && t.luns = [lun0]) = true := by decide

/-- N-7, N-8. -/
theorem test_startStopUnit :
    after (exec (.startStopUnit (hdr 0x16 0 .dirOut 0) false false) ready)
      (fun t => t.ctx.status = .ok && (t.luns.map Lun.stopped) = [true]) = true ∧
    after (exec (.startStopUnit (hdr 0x17 0 .dirOut 0) true true)
        { ready with luns := [{ lun0 with stopped := true }] })
      (fun t => t.ctx.status = .ok && (t.luns.map Lun.stopped) = [false]) = true := by decide

/-- N-9. -/
theorem test_startStopUnit_no_medium :
    after (exec (.startStopUnit (hdr 0x14 0 .dirOut 0) true false)
        { ready with luns := [{ lun0 with mediaPresent := false }] })
      (fun t => t.ctx.status = .failed && (t.luns.map Lun.stopped) = [false]) = true := by decide

/-- N-12: the opcode is tested before the medium. -/
theorem test_unknown_before_medium :
    after (exec (.unknown (hdr 0x19 36 .dirIn 0) 0xFF) { ready with luns := [{ lun0 with mediaPresent := false }] })
      (fun t => t.ctx.status = .failed && t.ctx.residue = 36 &&
        (t.luns.map Lun.lastSense) = [.invalidOpCode]) = true := by decide

/-- X-1: the LUN is tested before the opcode. -/
theorem test_unknown_absent_lun :
    after (exec (.unknown (hdr 0x19 36 .dirIn 1) 0xFF) ready)
      (fun t => t.ctx.status = .failed && t.luns = [lun0]) = true := by decide

/-- F-1. -/
theorem test_inquiryStd :
    after (exec (.inquiryStd (hdr 0x20 36 .dirIn 0))
        { ready with luns := [{ lun0 with mediaPresent := false, stopped := true }] })
      (fun t => t.ctx.status = .ok && t.ctx.xfer = .resp Config.default.inqStd 0 36) = true := by decide

/-- F-3: the direction must be IN. -/
theorem test_inquiryStd_direction :
    after (exec (.inquiryStd (hdr 0x22 36 .dirOut 0)) ready)
      (fun t => t.ctx.status = .failed && (t.luns.map Lun.lastSense) = [.invalidParameter]) = true := by
  decide

/-- F-5: the data bytes of the vector. -/
theorem test_inquiryVpdSupportedPages :
    after (exec (.inquiryVpdSupportedPages (hdr 0x23 8 .dirIn 0)) ready)
      (fun t => t.ctx.xfer = .resp [0x00, 0x00, 0x00, 0x04, 0x00, 0x80, 0x83, 0xB0] 0 8) = true := by decide

/-- F-8: a supported page with length 0. -/
theorem test_inquiryVpdSerialNumber_length :
    after (exec (.inquiryVpdSerialNumber (hdr 0x26 0 .dirIn 0)) ready)
      (fun t => t.ctx.status = .failed && (t.luns.map Lun.lastSense) = [.invalidParameter]) = true := by
  decide

/-- R223. -/
theorem test_inquiryVpdDeviceId :
    after (exec (.inquiryVpdDeviceId (hdr 0x26 16 .dirIn 0)) ready)
      (fun t => t.ctx.status = .ok && t.ctx.xfer = .resp Config.default.vpdDevId 0 16) = true := by decide

/-- R224. -/
theorem test_inquiryVpdBlockLimits :
    after (exec (.inquiryVpdBlockLimits (hdr 0x26 64 .dirIn 0)) ready)
      (fun t => t.ctx.status = .ok && t.ctx.xfer = .resp Config.default.vpdBlkLim 0 64) = true := by decide

/-- X-5: the page is tested before direction and length. -/
theorem test_inquiryVpdUnsupported :
    after (exec (.inquiryVpdUnsupported (hdr 0x25 7 .dirOut 0) 0xC0) ready)
      (fun t => t.ctx.status = .failed && t.ctx.residue = 7 &&
        (t.luns.map Lun.lastSense) = [.invalidFieldInCbw]) = true := by decide

/-- F-9: `00 00 07 FF 00 00 02 00`. -/
theorem test_readCapacity :
    after (exec (.readCapacity (hdr 0x27 8 .dirIn 0)) ready)
      (fun t => t.ctx.xfer = .resp [0x00, 0x00, 0x07, 0xFF, 0x00, 0x00, 0x02, 0x00] 0 8) = true := by decide

/-- F-11: `00 00 00 08 00 00 08 00 02 00 02 00`. -/
theorem test_readFormatCapacity :
    after (exec (.readFormatCapacity (hdr 0x28 12 .dirIn 0)) ready)
      (fun t => t.ctx.xfer =
        .resp [0x00, 0x00, 0x00, 0x08, 0x00, 0x00, 0x08, 0x00, 0x02, 0x00, 0x02, 0x00] 0 12) = true := by
  decide

/-- F-12. -/
theorem test_requestSense :
    after (exec (.requestSense (hdr 0x29 18 .dirIn 0)) { ready with luns := [{ lun0 with lastSense := .invalidOpCode }] })
      (fun t => t.luns = [lun0] && t.ctx.xfer =
        .resp [0x70, 0x00, 0x05, 0x00, 0x00, 0x00, 0x00, 0x0A, 0x00, 0x00, 0x00, 0x00, 0x20, 0x00, 0x00,
          0x00, 0x00, 0x00] 0 18) = true := by decide

/-- F-14: the pending sense is lost. -/
theorem test_requestSense_length :
    after (exec (.requestSense (hdr 0x2A 96 .dirIn 0)) { ready with luns := [{ lun0 with lastSense := .noMedia }] })
      (fun t => t.ctx.status = .failed && (t.luns.map Lun.lastSense) = [.invalidParameter]) = true := by
  decide

/-- F-15. -/
theorem test_modeSense6 :
    after (exec (.modeSense6 (hdr 0x2B 4 .dirIn 0)) ready)
      (fun t => t.ctx.xfer = .resp [0x03, 0x00, 0x00, 0x00] 0 4) = true := by decide

/-- F-17. -/
theorem test_modeSense6_stopped :
    after (exec (.modeSense6 (hdr 0x2B 4 .dirIn 0)) { ready with luns := [{ lun0 with stopped := true }] })
      (fun t => t.ctx.status = .failed && (t.luns.map Lun.lastSense) = [.noMedia]) = true := by decide

/-- M-1: the last block, at `2047 * 512 = 1048064` by R250 (the vector's product is misprinted; log 22). -/
theorem test_read10_last_block :
    after (exec (.read10 (hdr 0x31 512 .dirIn 0) 2047 1) ready)
      (fun t => t.ctx.status = .ok && t.ctx.xfer = .rd 1048064 512) = true := by decide

/-- M-3: the sum does not wrap. -/
theorem test_read10_no_wrap :
    after (exec (.read10 (hdr 0x3B 512 .dirIn 0) 0xFFFFFFFF 1) ready)
      (fun t => t.ctx.status = .failed && t.ctx.xfer = .none &&
        (t.luns.map Lun.lastSense) = [.invalidLba]) = true := by decide

/-- M-8. -/
theorem test_write10 :
    after (exec (.write10 (hdr 0x3C 1024 .dirOut 0) 2 2) ready)
      (fun t => t.ctx.residue = 1024 && t.ctx.xfer = .wr 1024 1024) = true := by decide

/-- M-11: the medium is tested before the range. -/
theorem test_write10_no_medium :
    after (exec (.write10 (hdr 0x3A 512 .dirOut 0) 2048 1) { ready with luns := [{ lun0 with mediaPresent := false }] })
      (fun t => t.ctx.status = .failed && (t.luns.map Lun.lastSense) = [.noMedia]) = true := by decide

/-- K-5: in a phase error on SuperSpeed the sequence is reset, the halt kept. -/
theorem test_clearFeature_phase_error :
    after (exec (.clearFeatureEndpointHalt .tx)
        { ready with cfg := { Config.default with superspeed := true }
                     ctx := { ready.ctx with phaseError := true }
                     haltRx := true, haltTx := true })
      (fun t => t.haltTx && t.trace = [.seqReset .tx, .ctrlAck]) = true := by decide

/-- K-6. -/
theorem test_clearFeature_superspeed :
    after (exec (.clearFeatureEndpointHalt .tx)
        { ready with cfg := { Config.default with superspeed := true }, haltRx := true, haltTx := true })
      (fun t => t.haltRx && !t.haltTx && t.trace = [.unstall .tx, .seqReset .tx, .ctrlAck]) = true := by
  decide

/-- K-2. -/
theorem test_getMaxLun_sixteen :
    after (exec .getMaxLun { ready with luns := List.replicate 16 small })
      (fun t => t.trace = [.ctrlReply [0x0F]]) = true := by decide

/-- K-7. -/
theorem test_botReset_inactive :
    after (exec .botReset { ready with ctx := Ctx.powerOn })
      (fun t => t.ctx.st = .inactive && t.trace = [.ctrlAck]) = true := by decide

/-- K-11. -/
theorem test_botReset_drops_csw :
    after (exec .botReset { ready with ctx := { ready.ctx with st := .status }, txq := [[0x55]], haltTx := true })
      (fun t => t.ctx.st = .cbwWait && t.txq = [] && t.haltTx) = true := by decide

/-- B-2. -/
theorem test_evConfig :
    after (exec .evConfig { ready with luns := [{ lun0 with stopped := true, lastSense := .noMedia }] })
      (fun t => t.luns = [{ lun0 with lastSense := .noMedia }]) = true := by decide

/-- B-8. -/
theorem test_evConfig_phase_error :
    after (exec .evConfig
        { ready with ctx := { ready.ctx with st := .status, phaseError := true }, txq := [[0x55]] })
      (fun t => t.ctx.st = .cbwWait && t.ctx.phaseError && t.haltRx && t.haltTx && t.txq = []) = true := by
  decide

/-- B-4. -/
theorem test_evBusReset :
    after (exec .evBusReset
        { ready with ctx := { ready.ctx with phaseError := true }, haltRx := true, haltTx := true })
      (fun t => t.ctx.st = .inactive && !t.ctx.phaseError && !t.haltRx && !t.haltTx) = true := by decide

/-- M-15: a command in flight is cancelled. -/
theorem test_evDisconnect_cancels :
    after (exec .evDisconnect { running (.rd 1024 1024) .dirIn 1024 with txq := [[0x00]] })
      (fun t => t.ctx.st = .inactive && !t.ctx.busy && t.ctx.residue = 0 && t.ctx.xfer = .none &&
        t.trace.getLast? = some (.lpmAllow true)) = true := by decide

/-- B-6. -/
theorem test_evSuspend :
    after (exec .evSuspend (running (.wr 1324 724) .dirOut 724))
      (fun t => t.ctx.residue = 724 && t.ctx.st = .dispatched) = true := by decide

/-- P-2: the phase-error CSW, its tag left open. -/
theorem test_evRxReady_phase_error :
    after (exec .evRxReady { ready with rxq := [cbwTur.take 30] })
      (fun t => t.ctx.st = .status && t.ctx.phaseError && t.rxq = [] &&
        t.txq.map (fun c => (c.take 4, c.drop 8)) =
          [([0x55, 0x53, 0x42, 0x53], [0x00, 0x00, 0x00, 0x00, 0x02])]) = true := by decide

/-- P-11: the buffer is lost. -/
theorem test_evRxReady_acquire_failed :
    after (exec .evRxReady { ready with rxq := [cbwTur], env := ⟨[], [.fail], [], 0⟩ })
      (fun t => t.ctx.st = .cbwWait && t.rxq = [] && t.trace = []) = true := by decide

/-- P-8 through reception. -/
theorem test_evRxReady_cbLength :
    refusedWith (exec .evRxReady { ready with rxq := [cbwTur.set 14 0x11] }) .cbLengthOutOfRange = true := by
  decide

/-- M-8's first buffer, on a small store: the store, the residue and the position. -/
theorem test_evRxReadyData :
    after (exec .evRxReadyData { running (.wr 4 8) .dirOut 8 with luns := [small], rxq := [[0xAA, 0xBB, 0x00]] })
      (fun t => t.ctx.residue = 5 && t.ctx.xfer = .wr 7 5 &&
        (t.luns.map Lun.store) = [[(0, 0x11), (4, 0xAA), (5, 0xBB), (7, 0x22)]]) = true := by decide

/-- M-14: more payload than remains. -/
theorem test_evRxReadyData_overrun :
    refusedWith (exec .evRxReadyData { running (.wr 4 2) .dirOut 2 with rxq := [[0xAA, 0xBB, 0xCC]] })
      .payloadOverrun = true := by decide

/-- B-7: stale. -/
theorem test_evTxDrained_stale :
    after (exec .evTxDrained ready) (fun t => t.ctx.st = .cbwWait && t.trace = []) = true := by decide

/-- P-2 once the CSW has drained. -/
theorem test_evTxDrained_phase_error :
    after (exec .evTxDrained { ready with ctx := { ready.ctx with st := .status, phaseError := true } })
      (fun t => t.ctx.st = .cbwWait && t.ctx.phaseError && t.trace = [.stall .rx, .stall .tx]) = true := by
  decide

/-- K-12. -/
theorem test_evCtrl_without_rule :
    refusedWith (exec (.evCtrl (.setFeatureHalt .tx)) ready) .controlRequestWithoutRule = true := by decide

/-- B-9's event, and B-12. -/
theorem test_evMedia :
    after (exec (.evMedia 0 false) ready)
      (fun t => t.luns = [{ lun0 with mediaPresent := false, lastSense := .mediaChanged }]) = true ∧
    refusedWith (exec (.evMedia 1 true) ready) .mediaLunOutOfRange = true := by decide

/-- F-18's first and second buffer: 32 bytes, then 4. -/
theorem test_dataStepTx :
    after (exec .dataStepTx
        { running (.resp Config.default.inqStd 0 36) .dirIn 36 with cfg := { Config.default with bufCap := 32 } })
      (fun t => t.ctx.xfer = .resp Config.default.inqStd 32 4 && t.ctx.residue = 4 &&
        t.txq = [Config.default.inqStd.take 32]) = true ∧
    after (exec .dataStepTx
        { running (.resp Config.default.inqStd 32 4) .dirIn 4 with cfg := { Config.default with bufCap := 32 } })
      (fun t => t.ctx.xfer = .none && t.ctx.residue = 0 && t.txq = [[0x20, 0x20, 0x20, 0x20]]) = true := by
  decide

/-- F-19's failing commit: the residue is frozen. -/
theorem test_dataStepTx_commit_failed :
    after (exec .dataStepTx
        { running (.resp Config.default.inqStd 32 4) .dirIn 4 with env := ⟨[], [.buffer], [.fail], 0⟩ })
      (fun t => t.ctx.status = .failed && t.ctx.residue = 4 && t.ctx.xfer = .none && t.txq = [] &&
        (t.luns.map Lun.lastSense) = [.crcError]) = true := by decide

/-- P-10's CSW and stall. -/
theorem test_dispatchDone_short_in :
    after (exec .dispatchDone
        (let s := running .none .dirIn 0x01020304
         { s with ctx := { s.ctx with tag := ⟨0x1B, 0, 0, 0⟩, status := .failed } }))
      (fun t => t.haltTx && !t.haltRx && t.ctx.st = .status && t.ctx.residue = 0 && t.txq =
        [[0x55, 0x53, 0x42, 0x53, 0x1B, 0, 0, 0, 0x04, 0x03, 0x02, 0x01, 0x01]]) = true := by decide

/-- T-7: the stall of RX stays when the CSW cannot be queued. -/
theorem test_dispatchDone_stuck :
    after (exec .dispatchDone { running .none .dirOut 512 with env := ⟨[], [.buffer], [.fail], 0⟩ })
      (fun t => t.haltRx && t.ctx.wedged && t.ctx.busy && t.ctx.st = .dispatched && t.txq = []) = true := by
  decide

/-! ### One step of the machine -/

/-- The first instruction after reset, placed by `withFetchWord`, is the row's (R112; log 8). -/
theorem test_step_runs_placed_word :
    after (step (State.reset.withFetchWord 24 0x2F0000)) (fun t => t.ctx.busy && t.ctx.status = .ok) = true ∧
      after (step (State.reset.withFetchWord 16 0xA1FE)) (fun t => t.trace = [.ctrlReply [0x00]]) = true ∧
      after (step (State.reset.withFetchWord 16 0x0201)) (fun t => t.trace = [.unstall .rx, .ctrlAck]) =
        true := by decide

/-- From reset with nothing placed the block waits (R401, R11). -/
theorem test_reset_waits : after (step State.reset) (fun t => t.ctx.st = .inactive && t.evq = []) = true := by
  decide

/-- B-3 and T-4: `RxFill` is not enabled. -/
theorem test_rxFill_not_enabled :
    after (step { State.reset with env := goodEnv [.rxFill cbwTur] }) (fun t => t.rxq = [] && t.evq = []) =
      true ∧
    after (step { ready with haltRx := true, env := goodEnv [.rxFill cbwTur] }) (fun t => t.rxq = []) = true := by
  decide

/-! ### Witnesses: states and operands that meet the hypotheses of each statement together -/

theorem test_witness_DecodingAnEncodingGivesTheInstructionBack :
    Config.default.unambiguous ∧
      (∀ i ∈ [Instr.read10 (hdr 0xFF 0xFFFFFFFF .dirIn 15) 0xFFFFFFFF 0xFFFF,
          .startStopUnit (hdr 0 0 .dirOut 0) true true, .unknown (hdr 0 0 .dirOut 0) 0xFF,
          .inquiryVpdUnsupported (hdr 0 0 .dirIn 0) 0xFF, .clearFeatureEndpointHalt .tx, .botReset],
        wellFormed Config.default i = true ∧ i.format ≠ .event) := by decide

theorem test_witness_DecodedInstructionsAreWellFormed :
    decode Config.default .cbw cbwTur = .ok (.testUnitReady (hdr 0x10 0 .dirOut 0)) ∧
      decode Config.default .ctrl [0x21, 0xFF, 0, 0, 0, 0, 0, 0] = .ok .botReset := ⟨rfl, rfl⟩

/-- The hypotheses of IgnoredCbwBitsDoNotChangeTheCommand. -/
def sameOperands (c : Config) (x y : List Byte) : Prop :=
  cbwValid x = true ∧ cbwValid y = true ∧
    cbLengthOk (byteAt x 14) = true ∧ cbLengthOk (byteAt y 14) = true ∧
    (∀ n, 4 ≤ n → n < 12 → byteAt x n = byteAt y n) ∧
    (byteAt x 12).getLsbD 7 = (byteAt y 12).getLsbD 7 ∧
    (byteAt x 13).extractLsb' 0 4 = (byteAt y 13).extractLsb' 0 4 ∧
    byteAt x 15 = byteAt y 15 ∧
    (byteAt x 15 = c.opcInquiry →
      (byteAt x 16).getLsbD 0 = (byteAt y 16).getLsbD 0 ∧
        ((byteAt x 16).getLsbD 0 = true → byteAt x 17 = byteAt y 17)) ∧
    (byteAt x 15 = c.opcStartStop →
      (byteAt x 19).getLsbD 0 = (byteAt y 19).getLsbD 0 ∧
        (byteAt x 19).getLsbD 1 = (byteAt y 19).getLsbD 1) ∧
    (byteAt x 15 = c.opcRead10 ∨ byteAt x 15 = c.opcWrite10 →
      (∀ n, 17 ≤ n → n < 21 → byteAt x n = byteAt y n) ∧ byteAt x 22 = byteAt y 22 ∧
        byteAt x 23 = byteAt y 23)

/-- Two CBWs with other bits in every place the command does not read: TEST UNIT READY, INQUIRY with
`evpd` 1, START STOP UNIT, READ(10). -/
theorem test_witness_IgnoredCbwBitsDoNotChangeTheCommand :
    ∀ p ∈ [(cbwTur, [0x55, 0x53, 0x42, 0x43, 0x10, 0, 0, 0, 0, 0, 0, 0, 0x7F, 0xF0, 0x10, 0x00] ++
              List.replicate 15 (0xFF : Byte)),
           (cbw [0x55, 0x53, 0x42, 0x43, 0, 0, 0, 0, 8, 0, 0, 0, 0x80, 0, 6, 0x12, 0x01, 0x83],
            cbw [0x55, 0x53, 0x42, 0x43, 0, 0, 0, 0, 8, 0, 0, 0, 0x81, 0, 6, 0x12, 0xFF, 0x83, 9, 9]),
           (cbw [0x55, 0x53, 0x42, 0x43, 0, 0, 0, 0, 0, 0, 0, 0, 0x00, 0, 6, 0x1B, 0, 0, 0, 0x02],
            cbw [0x55, 0x53, 0x42, 0x43, 0, 0, 0, 0, 0, 0, 0, 0, 0x00, 0, 6, 0x1B, 1, 2, 3, 0xFE]),
           (cbw [0x55, 0x53, 0x42, 0x43, 0, 0, 0, 0, 0, 2, 0, 0, 0x80, 0, 10, 0x28, 0, 1, 2, 3, 4, 0, 5, 6],
            cbw [0x55, 0x53, 0x42, 0x43, 0, 0, 0, 0, 0, 2, 0, 0, 0x80, 0, 10, 0x28, 7, 1, 2, 3, 4, 8, 5, 6,
              9])],
      p.1 ≠ p.2 ∧ sameOperands Config.default p.1 p.2 := by
  intro p hp
  simp only [List.mem_cons, List.not_mem_nil, or_false] at hp
  rcases hp with rfl | rfl | rfl | rfl <;>
    refine ⟨by decide, by decide, by decide, by decide, by decide, ?_, by decide, by decide, by decide,
      by decide, by decide, ?_⟩
  case inr.inr.inr.refine_2 =>
    exact fun _ => ⟨fun n h1 h2 => by interval_cases n <;> rfl, by decide, by decide⟩
  case inl.refine_2 => exact fun h => absurd h (by decide)
  case inr.inl.refine_2 => exact fun h => absurd h (by decide)
  case inr.inr.inl.refine_2 => exact fun h => absurd h (by decide)
  all_goals
    intro n h1 h2
    interval_cases n <;> rfl

theorem test_witness_HeaderOperandsAreAssembledFromTheCbw :
    decodeCbw Config.default
      (cbw [0x55, 0x53, 0x42, 0x43, 0x1B, 1, 2, 3, 0x04, 0x03, 0x02, 0x01, 0x80, 0xFF, 0x06, 0x00]) =
      .ok (.testUnitReady ⟨⟨0x1B, 1, 2, 3⟩, 0x01020304, .dirIn, 15⟩) := rfl

theorem test_witness_ReadAndWriteOperandsAreBigEndian :
    Config.default.opcodes.Nodup ∧
      byteAt (cbw (cbwSignature ++ [0, 0, 0, 0, 0, 0, 0, 0, 0, 0, 10, 0x28])) 15 = Config.default.opcRead10 ∧
      byteAt (cbw (cbwSignature ++ [0, 0, 0, 0, 0, 0, 0, 0, 0, 0, 10, 0x2A])) 15 = Config.default.opcWrite10 := by
  decide

/-- Each event with no internal step enabled, EV_RX_READY under either row; and an event picked over an
enabled internal step. -/
theorem test_witness_WorkerTurnConsumesTheHeadEvent :
    (∀ e ∈ [Event.config, .busReset, .disconnect, .suspend, .txDrained, .ctrl .getStatus, .media 7 true,
        .rxReady],
      let s := { ready with evq := [e], env := goodEnv [.worker .internal] }
      configInRange s.cfg = true ∧ s.env.schedule = .worker .internal :: [] ∧ s.evq = e :: [] ∧
        s.ctx.st ≠ .dispatched) ∧
    (let s := { running (.wr 0 4) .dirOut 4 with evq := [.rxReady], env := goodEnv [.worker .internal] }
     configInRange s.cfg = true ∧ s.env.schedule = .worker .internal :: [] ∧ s.evq = .rxReady :: [] ∧
       s.ctx.st = .dispatched ∧ s.ctx.xfer = .wr 0 4) ∧
    (let s := { running (.rd 0 4) .dirIn 4 with evq := [.busReset], env := goodEnv [.worker .event] }
     configInRange s.cfg = true ∧ s.env.schedule = .worker .event :: [] ∧ s.evq = .busReset :: [] ∧
       s.ctx.st = .dispatched ∧ s.ctx.wedged = false ∧ s.ctx.xfer = .rd 0 4) := by decide

theorem test_witness_WorkerTurnRunsTheInternalStep :
    ∀ x ∈ [Xfer.resp [0x01] 0 1, .rd 0 4, .none],
      let s := { running x .dirIn 4 with evq := [.suspend], env := goodEnv [.worker .internal] }
      configInRange s.cfg = true ∧ s.env.schedule = .worker .internal :: [] ∧ s.ctx.st = .dispatched ∧
        s.ctx.xfer = x ∧ s.ctx.wedged = false := by decide

theorem test_witness_StepRunsTheDecodedCommand :
    let s := { ready with evq := [.rxReady], rxq := [cbwTur], env := goodEnv [.worker .internal] }
    configInRange s.cfg = true ∧ s.env.schedule = .worker .internal :: [] ∧ s.evq = .rxReady :: [] ∧
      s.rxq = cbwTur :: [] ∧ s.ctx.st = .cbwWait ∧ s.ctx.phaseError = false ∧ s.ctx.wedged = false ∧
      s.nextAcquire = .buffer ∧ decodeCbw s.cfg cbwTur = .ok (.testUnitReady (hdr 0x10 0 .dirOut 0)) :=
  ⟨by decide, rfl, rfl, rfl, rfl, rfl, rfl, rfl, rfl⟩

/-- `READY` with a CBW announced satisfies the invariant. -/
theorem inv_waiting : Inv { ready with evq := [.rxReady], rxq := [cbwTur] } where
  config := by decide
  geometry := by decide
  stores := by decide
  cbwLength := by decide
  busy_iff := by decide
  residue_idle := by decide
  xfer_idle := by decide
  residue_le := by decide
  dataPhase := trivial
  phaseError := by decide
  commandStatus := by decide
  phaseErrorHalts := by decide
  wedged := by decide
  rx_one := by decide
  rx_wanted := fun _ => ⟨rfl, .inl ⟨rfl, rfl⟩⟩
  rx_sizes := by decide
  tx_sizes := by decide

/-- A data phase of the last block satisfies the invariant, in each kind. -/
theorem inv_running (x : Xfer) (dir : Dir)
    (h : x = .none ∨ (x = .rd 1048064 512 ∧ dir = .dirIn) ∨ (x = .wr 1048064 512 ∧ dir = .dirOut)) :
    Inv (running x dir 512) where
  config := show configInRange Config.default = true by decide
  geometry := show [lun0].map Lun.geometry = [(512, 2048)] by decide
  stores := show ∀ u ∈ [lun0], u.store.wf ∧ ∀ x ∈ u.store, x.1 < u.capacity by decide
  cbwLength := show (List.replicate 31 (0x00 : Byte)).length = 31 by decide
  busy_iff := ⟨fun _ => rfl, fun _ => rfl⟩
  residue_idle := fun _ => rfl
  xfer_idle := fun _ => ⟨rfl, rfl⟩
  residue_le := fun _ => Nat.le_refl _
  dataPhase := by
    rcases h with rfl | ⟨rfl, rfl⟩ | ⟨rfl, rfl⟩
    · trivial
    · exact ⟨by decide, by decide, rfl, by decide⟩
    · exact ⟨by decide, by decide, rfl, by decide⟩
  phaseError := fun h => by cases h
  commandStatus := fun _ h => by cases h
  phaseErrorHalts := fun h => by cases h
  wedged := fun h => by cases h
  rx_one := Nat.zero_le _
  rx_wanted := fun h => absurd rfl h
  rx_sizes := fun _ h => absurd h List.not_mem_nil
  tx_sizes := fun _ h => absurd h List.not_mem_nil

/-- One state of each side: a write waiting, and a read whose step is enabled. -/
theorem test_witness_QuiescentStatesAreExactlyThoseOfTheSpec :
    (let s := running (.wr 1048064 512) .dirOut 512
     Inv s ∧ s.env.schedule = [] ∧ s.evq = [] ∧ s.ctx.xfer.isWrite = true) ∧
    (let s := running (.rd 1048064 512) .dirIn 512
     Inv s ∧ s.env.schedule = [] ∧ s.evq = [] ∧ s.ctx.st = .dispatched ∧ s.ctx.xfer.isWrite = false ∧
       s.ctx.wedged = false) :=
  ⟨⟨inv_running _ _ (.inr (.inr ⟨rfl, rfl⟩)), rfl, rfl, rfl⟩,
   ⟨inv_running _ _ (.inr (.inl ⟨rfl, rfl⟩)), rfl, rfl, rfl, rfl, rfl⟩⟩

/-- Buffers of 1 and of `BUF_CAP` bytes are taken; of none and of one more are not. -/
theorem test_witness_RxFillAppendsABufferOnlyWhileRxIsArmed :
    (∀ n ∈ [0, 1, 512, 513],
      let s := { ready with env := goodEnv [.rxFill (List.replicate n 0x55)] }
      configInRange s.cfg = true ∧ s.env.schedule = .rxFill (List.replicate n 0x55) :: []) ∧
    (let s := { running (.wr 0 512) .dirOut 512 with env := goodEnv [.rxFill [0x55]] }
     configInRange s.cfg = true ∧ s.env.schedule = .rxFill [0x55] :: []) :=
  ⟨fun _ _ => ⟨show configInRange Config.default = true by decide, rfl⟩, by decide⟩

/-- A buffer to deliver; one held back by the halt; and none. -/
theorem test_witness_TxDrainDeliversTheHeadBuffer :
    ∀ p ∈ [([[0x55], [0x53]], false), ([[0x55]], true), ([], false)],
      let s := { ready with txq := p.1, haltTx := p.2, env := goodEnv [.txDrain] }
      configInRange s.cfg = true ∧ s.env.schedule = .txDrain :: [] ∧
        (s.txq = [0x55] :: [[0x53]] ∧ s.haltTx = false ∨ s.txq = [] ∨ s.haltTx = true) := by decide

theorem test_witness_PostedEventsJoinTheEndOfTheQueue :
    ∀ e ∈ [Event.config, .busReset, .disconnect, .suspend, .ctrl .getStatus, .media 7 true],
      let s := { ready with evq := [.rxReady], env := goodEnv [.post e] }
      configInRange s.cfg = true ∧ s.env.schedule = .post e :: [] ∧ Event.postable e = true := by decide

theorem test_witness_EnvironmentStepsLeaveTheBlockUnchanged :
    let s := { ready with txq := [[0x55]], env := goodEnv [.txDrain] }
    s.env.schedule = .txDrain :: [] ∧ (∀ p, Turn.txDrain ≠ .worker p) ∧ ∃ t, step s = .next t :=
  ⟨rfl, (fun _ => Turn.noConfusion), _, rfl⟩

/-- A step that takes the head event, one that appends, one that does neither. -/
theorem test_witness_EventsLeaveTheQueueInOrder :
    (∃ t, step { ready with evq := [.suspend, .txDrained], env := goodEnv [.worker .event] } = .next t) ∧
    (∃ t, step { ready with evq := [.suspend], env := goodEnv [.post .config] } = .next t) ∧
    (∃ t, step (running .none .dirIn 0) = .next t) := ⟨⟨_, rfl⟩, ⟨_, rfl⟩, ⟨_, rfl⟩⟩

/-- A drained buffer, a committed one, and a reset of the pipe. -/
theorem test_witness_HostReceivesBuffersInCommitOrder :
    (∃ t, step { ready with txq := [[0x55]], env := goodEnv [.txDrain] } = .next t) ∧
    (∃ t, step (running .none .dirIn 0) = .next t) ∧
    (∃ t, step { ready with txq := [[0x55]], hostRx := [[0x53]], evq := [.config] } = .next t) :=
  ⟨⟨_, rfl⟩, ⟨_, rfl⟩, ⟨_, rfl⟩⟩

/-- The first LUN number that does not exist, and the last. -/
theorem test_witness_CommandOnAbsentLunFails :
    ∀ l ∈ [(1 : BitVec 4), 15], (Instr.verify (hdr 0 0 .dirOut l)).header = some (hdr 0 0 .dirOut l) ∧
      ready.luns[(hdr 0 0 .dirOut l).lun.toNat]? = none := by decide

theorem test_witness_UnrecognisedCommandsFailAtRecognition :
    ready.luns[(hdr 0 0 .dirOut 0).lun.toNat]? = some lun0 := rfl

/-- A length where none is due, none where one is due, one byte too few, and the wrong direction. -/
theorem test_witness_LengthOrDirectionMismatchFails :
    ready.luns[(hdr 0 0 .dirOut 0).lun.toNat]? = some lun0 ∧
    commandPolicy ready.cfg lun0 (.verify (hdr 0 1 .dirOut 0)) = some ⟨none, true, true⟩ ∧
    ¬ Policy.accepts ⟨none, true, true⟩ (hdr 0 1 .dirOut 0) ∧
    commandPolicy ready.cfg lun0 (.inquiryStd (hdr 0 0 .dirIn 0)) = some ⟨some ⟨.dirIn, 36⟩, false, false⟩ ∧
    ¬ Policy.accepts ⟨some ⟨.dirIn, 36⟩, false, false⟩ (hdr 0 0 .dirIn 0) ∧
    ¬ Policy.accepts ⟨some ⟨.dirIn, 36⟩, false, false⟩ (hdr 0 35 .dirIn 0) ∧
    ¬ Policy.accepts ⟨some ⟨.dirIn, 36⟩, false, false⟩ (hdr 0 36 .dirOut 0) := by
  refine ⟨rfl, rfl, ?_, rfl, ?_, ?_, ?_⟩
  · show ¬ (1#32 = 0)
    decide
  · show ¬ ((0 : Word) ≠ 0 ∧ _)
    exact fun h => h.1 rfl
  · show ¬ (_ ∧ _ ∧ BitVec.toNat (35 : Word) = 36)
    exact fun h => absurd h.2.2 (by decide)
  · show ¬ (_ ∧ Dir.dirOut = .dirIn ∧ _)
    exact fun h => by cases h.2.1

/-- An absent medium, a stopped unit, and a pending MEDIA_CHANGED. -/
theorem test_witness_NotReadyUnitFailsTheCommand :
    ∀ u ∈ [{ lun0 with mediaPresent := false }, { lun0 with stopped := true },
        { lun0 with mediaPresent := false, lastSense := .mediaChanged }],
      ({ ready with luns := [u] } : State).luns[(hdr 0 0 .dirOut 0).lun.toNat]? = some u ∧
        commandPolicy ready.cfg u (.verify (hdr 0 0 .dirOut 0)) = some ⟨none, true, true⟩ ∧
        Policy.accepts ⟨none, true, true⟩ (hdr 0 0 .dirOut 0) ∧ ¬ Policy.ready ⟨none, true, true⟩ u := by
  intro u hu
  refine ⟨rfl, rfl, rfl, ?_⟩
  simp only [List.mem_cons, List.not_mem_nil, or_false] at hu
  rcases hu with rfl | rfl | rfl
  · exact fun h => by cases h.1 rfl
  · exact fun h => by cases h.2 rfl
  · exact fun h => by cases h.1 rfl

/-- One block too far, by the address and by the count. -/
theorem test_witness_TransferBeyondTheLastBlockFails :
    (Instr.read10 (hdr 0 512 .dirIn 0) 2048 1 = .read10 (hdr 0 512 .dirIn 0) 2048 1 ∧
      commandPolicy ready.cfg lun0 (.read10 (hdr 0 512 .dirIn 0) 2048 1) =
        some ⟨some ⟨.dirIn, 512⟩, true, true⟩ ∧
      Policy.accepts ⟨some ⟨.dirIn, 512⟩, true, true⟩ (hdr 0 512 .dirIn 0) ∧
      Policy.ready ⟨some ⟨.dirIn, 512⟩, true, true⟩ lun0 ∧
      lun0.blockCount < BitVec.toNat (2048 : Word) + BitVec.toNat (1 : BitVec 16)) ∧
    (commandPolicy ready.cfg lun0 (.write10 (hdr 0 1024 .dirOut 0) 2047 2) =
        some ⟨some ⟨.dirOut, 1024⟩, true, true⟩ ∧
      Policy.accepts ⟨some ⟨.dirOut, 1024⟩, true, true⟩ (hdr 0 1024 .dirOut 0) ∧
      Policy.ready ⟨some ⟨.dirOut, 1024⟩, true, true⟩ lun0 ∧
      lun0.blockCount < BitVec.toNat (2047 : Word) + BitVec.toNat (2 : BitVec 16)) :=
  ⟨⟨rfl, by decide, ⟨by decide, rfl, by decide⟩, ⟨fun _ => rfl, fun _ => rfl⟩, by decide⟩,
   ⟨by decide, ⟨by decide, rfl, by decide⟩, ⟨fun _ => rfl, fun _ => rfl⟩, by decide⟩⟩

theorem test_witness_StatusOnlyCommandsSucceedWithoutEffect :
    ready.luns[(hdr 0 0 .dirOut 0).lun.toNat]? = some lun0 ∧ (hdr 0 0 .dirOut 0).xferLen = 0 ∧
      lun0.mediaPresent = true ∧ lun0.stopped = false := by decide

theorem test_witness_StartStopUnitWritesStopped :
    ∀ u ∈ [lun0, { lun0 with stopped := true }],
      ({ ready with luns := [u] } : State).luns[(hdr 0 0 .dirOut 0).lun.toNat]? = some u ∧
        (hdr 0 0 .dirOut 0).xferLen = 0 ∧ u.mediaPresent = true := by decide

theorem test_witness_InquiryAnswersItsConfiguredBlock :
    ∀ data ∈ [ready.cfg.inqStd, ready.cfg.vpdSupported, ready.cfg.vpdSerial, ready.cfg.vpdDevId,
        ready.cfg.vpdBlkLim],
      let h := hdr 0 (BitVec.ofNat 32 data.length) .dirIn 0
      ready.luns[h.lun.toNat]? = some lun0 ∧ h.xferLen ≠ 0 ∧ h.dir = .dirIn ∧
        h.xferLen.toNat = data.length := by decide

/-- The largest geometry, and each of the three lengths. -/
theorem test_witness_CapacityAndModeResponses :
    ∀ u ∈ [(⟨16777215, 4294967295, true, false, .ok, []⟩ : Lun), ⟨1, 1, true, false, .ok, []⟩],
      ({ ready with luns := [u] } : State).luns[(hdr 0 8 .dirIn 0).lun.toNat]? = some u ∧
        1 ≤ u.blockCount ∧ u.blockCount < 2 ^ 32 ∧ 1 ≤ u.blockSize ∧ u.blockSize < 2 ^ 24 ∧
        u.mediaPresent = true ∧ u.stopped = false ∧
        ∀ n ∈ [(ready.cfg.rdCapLen, 8), (ready.cfg.rdFmtLen, 12), (4, 4)],
          (hdr 0 (BitVec.ofNat 32 n.2) .dirIn 0).xferLen ≠ 0 ∧
            (hdr 0 (BitVec.ofNat 32 n.2) .dirIn 0).xferLen.toNat = n.1 := by decide

/-- The pending sense after power-on and both ends of the table, with the layout's length; and a length that
is not the layout's. -/
theorem test_witness_RequestSenseReportsAndClearsThePendingSense :
    (∀ p ∈ [(Sense.ok, (0 : Fin 16), (⟨0x00, 0x00, 0x00⟩ : SenseTriple)),
        (.deviceReset, 12, ⟨0x06, 0x29, 0x00⟩), (.savePageNotSupported, 15, ⟨0x05, 0x39, 0x00⟩)],
      let u := { lun0 with mediaPresent := false, lastSense := p.1 }
      ({ ready with luns := [u] } : State).luns[(hdr 0 18 .dirIn 0).lun.toNat]? = some u ∧
        (hdr 0 18 .dirIn 0).xferLen ≠ 0 ∧ (hdr 0 18 .dirIn 0).dir = .dirIn ∧
        (hdr 0 18 .dirIn 0).xferLen.toNat = ready.cfg.senseLen ∧ ready.cfg.senseLen = 18 ∧
        p.2.2 = ready.cfg.senseTable.get p.2.1) ∧
    (hdr 0 20 .dirIn 0).xferLen.toNat = { Config.default with senseLen := 20 }.senseLen := by decide

/-- R5, R6: a response length that is not the layout's is in range, and the command runs with it. -/
theorem test_open_response_length_runs :
    configInRange { Config.default with senseLen := 20, rdCapLen := 9, rdFmtLen := 1 } = true ∧
    ∃ t bytes, exec (.requestSense (hdr 0 20 .dirIn 0))
        { ready with cfg := { Config.default with senseLen := 20 } } = .next t ∧
      t.ctx.status = .ok ∧ t.ctx.xfer = .resp bytes 0 20 :=
  ⟨by decide, _, _, rfl, rfl, rfl⟩

/-- The last block, in both directions. -/
theorem test_witness_TransfersInsideTheStoreSetUpTheirDataPhase :
    ∀ d ∈ [Dir.dirIn, .dirOut],
      let h := hdr 0 512 d 0
      ready.luns[h.lun.toNat]? = some lun0 ∧ h.xferLen ≠ 0 ∧
        h.xferLen.toNat = BitVec.toNat (1 : BitVec 16) * lun0.blockSize ∧ lun0.mediaPresent = true ∧
        lun0.stopped = false ∧
        BitVec.toNat (2047 : Word) + BitVec.toNat (1 : BitVec 16) ≤ lun0.blockCount ∧ h.dir = d := by decide

theorem test_witness_EveryCommandCompletesAndFailuresArePrecise :
    (Instr.unknown (hdr 0 5 .dirOut 15) 0xFF).header = some (hdr 0 5 .dirOut 15) ∧
      (Instr.write10 (hdr 0 512 .dirOut 0) 0 1).header = some (hdr 0 512 .dirOut 0) := ⟨rfl, rfl⟩

/-- A response and a read, a full buffer and the last short one. -/
theorem test_witness_DataStepCommitsTheNextChunk :
    (let bytes := List.replicate 513 (0x20 : Byte)
     ∀ p ∈ [(0, 513), (512, 1)],
      let s := running (.resp bytes p.1 p.2) .dirIn (BitVec.ofNat 32 p.2)
      s.ctx.st = .dispatched ∧ s.nextAcquire = .buffer ∧ s.commitAfter 1 = .ok ∧
        min s.cfg.bufCap p.2 = (if p.2 = 1 then 1 else 512) ∧ s.ctx.xfer = .resp bytes p.1 p.2) ∧
    (∀ p ∈ [(0, 513), (1048575, 1)],
      let s := running (.rd p.1 p.2) .dirIn (BitVec.ofNat 32 p.2)
      s.ctx.st = .dispatched ∧ s.nextAcquire = .buffer ∧ s.commitAfter 1 = .ok ∧
        s.ctx.xfer = .rd p.1 p.2 ∧ s.luns[s.ctx.lunSel.toNat]? = some lun0 ∧
        p.1 + min s.cfg.bufCap p.2 ≤ lun0.blockSize * lun0.blockCount) ∧
    (let s := running (.rd 1048575 1) .dirIn 1
     ([0x00] : Buffer).length = min s.cfg.bufCap 1 ∧
       ∀ k, k < 1 → ([0x00] : Buffer)[k]? = s.storeByte s.ctx.lunSel.toNat (1048575 + k)) := by
  refine ⟨?_, by decide, by decide⟩
  intro bytes p hp
  simp only [List.mem_cons, List.not_mem_nil, or_false] at hp
  rcases hp with rfl | rfl
  · exact ⟨rfl, rfl, rfl, by decide, rfl⟩
  · exact ⟨rfl, rfl, rfl, by decide, rfl⟩

/-- A buffer that fills the rest, at the end of the store. -/
theorem test_witness_PayloadBufferIsStoredAndCounted :
    let s := { running (.wr 30 2) .dirOut 2 with luns := [small], rxq := [[0xAA, 0xBB]] }
    s.ctx.st = .dispatched ∧ s.ctx.wedged = false ∧ s.ctx.xfer = .wr 30 2 ∧ s.rxq = [0xAA, 0xBB] :: [] ∧
      s.luns[s.ctx.lunSel.toNat]? = some small ∧ ([0xAA, 0xBB] : Buffer).length ≤ 2 ∧
      30 + ([0xAA, 0xBB] : Buffer).length ≤ small.blockSize * small.blockCount ∧
      s.nextAcquire = .buffer := by decide

/-- A failed acquire, a failed commit, and a lost payload buffer. -/
theorem test_witness_PipeFailureInADataPhaseFailsTheCommand :
    (∀ d ∈ [AcquireDraw.timeout, .fail],
      let s := { running (.rd 1048575 1) .dirIn 1 with env := ⟨[], [d], [], 0⟩ }
      s.ctx.st = .dispatched ∧ s.luns[s.ctx.lunSel.toNat]? = some lun0 ∧ s.ctx.xfer = .rd 1048575 1 ∧
        s.nextAcquire ≠ .buffer) ∧
    (let s := { running (.rd 1048575 1) .dirIn 1 with env := ⟨[], [.buffer], [.fail], 0⟩ }
     s.ctx.st = .dispatched ∧ s.luns[s.ctx.lunSel.toNat]? = some lun0 ∧ s.ctx.xfer = .rd 1048575 1 ∧
       1048575 + min s.cfg.bufCap 1 ≤ lun0.blockSize * lun0.blockCount ∧ s.nextAcquire = .buffer ∧
       s.commitAfter 1 = .fail) ∧
    (let s := { running (.wr 0 4) .dirOut 4 with rxq := [[0xAA]], env := ⟨[], [.fail], [], 0⟩ }
     s.ctx.st = .dispatched ∧ s.luns[s.ctx.lunSel.toNat]? = some lun0 ∧ s.ctx.xfer = .wr 0 4 ∧
       s.ctx.wedged = false ∧ s.rxq ≠ [] ∧ s.nextAcquire ≠ .buffer) := by decide

theorem test_witness_ReceivedCommandIsAcceptedAndDispatched :
    let s := { ready with rxq := [cbwTur] }
    s.ctx.st = .cbwWait ∧ s.ctx.phaseError = false ∧ s.ctx.wedged = false ∧ s.rxq = cbwTur :: [] ∧
      s.nextAcquire = .buffer ∧ decodeCbw s.cfg cbwTur = .ok (.testUnitReady (hdr 0x10 0 .dirOut 0)) :=
  ⟨rfl, rfl, rfl, rfl, rfl, rfl⟩

/-- Each way a notification can be stale, with a buffer present where that is not the way; a lost one; and the
two stale ones under EV_RX_READY.DATA, a WRITE(10) waiting. -/
theorem test_witness_StaleAndLostNotificationsChangeNothingElse :
    ready.rxq = [] ∧
    ({ ready with rxq := [cbwTur], ctx := { ready.ctx with wedged := true } } : State).ctx.wedged = true ∧
    ({ ready with rxq := [cbwTur], ctx := Ctx.powerOn } : State).ctx.st = .inactive ∧
    ({ ready with rxq := [cbwTur], ctx := { ready.ctx with st := .status } } : State).ctx.st = .status ∧
    (let s := { ready with rxq := [cbwTur], ctx := { ready.ctx with phaseError := true } }
     s.ctx.st = .cbwWait ∧ s.ctx.phaseError = true) ∧
    (let s := { running (.rd 0 4) .dirIn 4 with rxq := [cbwTur] }
     s.ctx.st = .dispatched ∧ s.ctx.xfer.isWrite = false) ∧
    (let s := { ready with rxq := [cbwTur], env := ⟨[], [.timeout], [], 0⟩ }
     s.rxq ≠ [] ∧ s.ctx.wedged = false ∧ s.ctx.st = .cbwWait ∧ s.ctx.phaseError = false ∧
       s.nextAcquire ≠ .buffer) ∧
    (running (.wr 0 4) .dirOut 4).rxq = [] ∧
    (let s := { running (.wr 0 4) .dirOut 4 with rxq := [[0xAA]] }
     ({ s with ctx := { s.ctx with wedged := true } } : State).ctx.wedged = true) := by decide

/-- One byte short, one byte too many, and a wrong last character. -/
theorem test_witness_InvalidCbwEntersThePhaseError :
    ∀ b ∈ [cbwTur.take 30, cbwTur ++ [0x00], [0x55, 0x53, 0x42, 0x53] ++ cbwTur.drop 4],
      let s := { ready with rxq := [b] }
      s.ctx.st = .cbwWait ∧ s.ctx.phaseError = false ∧ s.ctx.wedged = false ∧ s.rxq = b :: [] ∧
        s.nextAcquire = .buffer ∧ ¬ (b.length = 31 ∧ b.take 4 = [0x55, 0x53, 0x42, 0x43]) ∧
        s.acquireAfter 1 2 = .buffer ∧ s.commitAfter 3 = .ok := by decide

/-- Each failure at STATUS entry, and each at the phase-error entry. -/
theorem test_witness_CswThatCannotBeQueuedLeavesTheBlockStuck :
    (let s := { running .none .dirOut 512 with env := ⟨[], [.timeout], [], 0⟩ }
     s.ctx.wedged = false ∧ s.ctx.st = .dispatched ∧ s.ctx.xfer = .none ∧ s.nextAcquire ≠ .buffer) ∧
    (let s := { running .none .dirOut 512 with env := ⟨[], [.buffer], [.fail], 0⟩ }
     s.ctx.wedged = false ∧ s.ctx.st = .dispatched ∧ s.ctx.xfer = .none ∧ s.nextAcquire = .buffer ∧
       s.commitAfter 1 = .fail) ∧
    (let s := { ready with rxq := [[0x00]], env := ⟨[], [.buffer, .fail], [], 0⟩ }
     s.ctx.wedged = false ∧ s.ctx.st = .cbwWait ∧ s.ctx.phaseError = false ∧ s.rxq = [0x00] :: [] ∧
       s.nextAcquire = .buffer ∧ cbwValid [0x00] = false ∧ s.acquireAfter 1 2 ≠ .buffer) ∧
    (let s := { ready with rxq := [[0x00]], env := ⟨[], [.buffer, .buffer], [.fail], 0⟩ }
     s.ctx.wedged = false ∧ s.ctx.st = .cbwWait ∧ s.ctx.phaseError = false ∧ s.rxq = [0x00] :: [] ∧
       s.nextAcquire = .buffer ∧ cbwValid [0x00] = false ∧ s.acquireAfter 1 2 = .buffer ∧
       s.commitAfter 3 = .fail) := by decide

/-- `cbLength` 0 and 17, one byte too many, each request without a rule, the first absent LUN, and a
configuration with no LUN. -/
theorem test_witness_RefusalsAreThoseTheSpecAsksFor :
    (∀ b ∈ [cbwTur.set 14 0x00, cbwTur.set 14 0x11],
      let s := { ready with rxq := [b] }
      s.ctx.st = .cbwWait ∧ s.ctx.phaseError = false ∧ s.ctx.wedged = false ∧ s.rxq = b :: [] ∧
        s.nextAcquire = .buffer ∧ cbwValid b = true ∧
        ((byteAt b 14).toNat = 0 ∨ 16 < (byteAt b 14).toNat)) ∧
    (let s := { running (.wr 0 1) .dirOut 1 with rxq := [[0xAA, 0xBB]] }
     s.ctx.st = .dispatched ∧ s.ctx.wedged = false ∧ s.ctx.xfer = .wr 0 1 ∧ s.rxq = [0xAA, 0xBB] :: [] ∧
       s.nextAcquire = .buffer ∧ 1 < ([0xAA, 0xBB] : Buffer).length) ∧
    ready.luns.length ≤ 1 ∧
    (∀ c ∈ [{ Config.default with luns := [] }, { Config.default with bufCap := 30 },
        { Config.default with luns := [⟨16777216, 1, true, []⟩] }],
      ¬ (1 ≤ c.luns.length ∧ c.luns.length ≤ 16 ∧ 31 ≤ c.bufCap ∧
        ∀ l ∈ c.luns, 1 ≤ l.blockSize ∧ l.blockSize < 2 ^ 24 ∧ 1 ≤ l.blockCount ∧
          l.blockCount < 2 ^ 32)) := by decide

/-- An unfinished OUT and a short IN data phase. -/
theorem test_witness_DispatchDoneQueuesTheCsw :
    ∀ d ∈ [Dir.dirIn, .dirOut],
      let s := running .none d 512
      s.ctx.st = .dispatched ∧ s.ctx.xfer = .none ∧ s.ctx.wedged = false ∧ s.nextAcquire = .buffer ∧
        s.commitAfter 1 = .ok := by decide

theorem test_witness_BusResetAndDisconnectFlushToInactive :
    Instr.evBusReset = .evBusReset ∨ Instr.evBusReset = .evDisconnect := .inl rfl

theorem test_witness_MediaEventWritesPresenceAndSense : ready.luns[0]? = some lun0 := rfl

/-- One LUN, and sixteen. -/
theorem test_witness_GetMaxLunAnswersTheNumberOfLunsLessOne :
    ∀ n ∈ [1, 16], 1 ≤ ({ ready with luns := List.replicate n lun0 } : State).luns.length ∧
      ({ ready with luns := List.replicate n lun0 } : State).luns.length ≤ 16 := by decide

/-- The default LUN; and launch contents at both ends of a store, one address given twice and one outside. -/
theorem test_witness_PowerOnValues :
    (State.powerOn Config.default).luns[0]? = some ⟨512, 2048, true, false, .deviceReset, []⟩ ∧
    Config.default.luns[0]? = some ⟨512, 2048, true, []⟩ ∧
    (let p : LunConfig := ⟨4, 8, true, [(31, 0xBB), (0, 0xAA), (31, 0xCC), (32, 0xDD)]⟩
     p.launch.find? (fun x => x.1 = 31) = some (31, 0xBB) ∧ p.launch.find? (fun x => x.1 = 0) = some (0, 0xAA) ∧
       Lun.powerOn p = ⟨4, 8, true, false, .deviceReset, [(0, 0xAA), (31, 0xBB)]⟩) := by decide

theorem test_witness_PowerOnSatisfiesTheInvariant :
    configInRange { Config.default with luns := [⟨4, 8, true, [(31, 0xBB), (0, 0xAA)]⟩] } = true := by decide

/-- The CBW consumed, and a data step run. -/
theorem test_witness_EveryStepKeepsTheInvariant :
    (let s := { ready with evq := [.rxReady], rxq := [cbwTur] }
     Inv s ∧ ∃ t, step s = .next t) ∧
    (let s := running .none .dirIn 512
     Inv s ∧ ∃ t, step s = .next t) :=
  ⟨⟨inv_waiting, _, rfl⟩, ⟨inv_running _ _ (.inl rfl), _, rfl⟩⟩

theorem test_witness_NoFaultFromAStateWithTheInvariant :
    Inv (running (.rd 1048064 512) .dirIn 512) ∧ Inv (running (.wr 1048064 512) .dirOut 512) :=
  ⟨inv_running _ _ (.inr (.inl ⟨rfl, rfl⟩)), inv_running _ _ (.inr (.inr ⟨rfl, rfl⟩))⟩

/-- A field of each kind that changes: presence, `stopped`, and the sense by a report, by the failure of a
command, and by that of a data phase. -/
theorem test_witness_LunFieldsHaveOnlyTheirWriters :
    (∃ t, exec (.evMedia 0 false) ready = .next t ∧
      t.luns[0]? = some { lun0 with mediaPresent := false, lastSense := .mediaChanged }) ∧
    (∃ t, exec (.startStopUnit (hdr 0 0 .dirOut 0) true false) ready = .next t ∧
      t.luns[0]? = some { lun0 with stopped := true }) ∧
    (∃ t, exec (.requestSense (hdr 0 18 .dirIn 0))
        { ready with luns := [{ lun0 with lastSense := .noMedia }] } = .next t ∧ t.luns[0]? = some lun0) ∧
    (∃ t, exec (.verify (hdr 0 1 .dirOut 0)) ready = .next t ∧
      t.luns[0]? = some { lun0 with lastSense := .invalidParameter }) ∧
    (∃ t, exec .dataStepTx { running (.rd 0 4) .dirIn 4 with env := ⟨[], [.fail], [], 0⟩ } = .next t ∧
      t.luns[0]? = some { lun0 with lastSense := .crcError }) :=
  ⟨⟨_, rfl, rfl⟩, ⟨_, rfl, rfl⟩, ⟨_, rfl, rfl⟩, ⟨_, rfl, rfl⟩, ⟨_, rfl, rfl⟩⟩

/-- A payload buffer at bytes 4 to 6: bytes 3 and 7 are outside, and so is the same address of another LUN. -/
theorem test_witness_StoresChangeOnlyWhereTheStoredBytesGo :
    let s := { running (.wr 4 8) .dirOut 8 with luns := [small, small], rxq := [[0xAA, 0xBB, 0xCC]] }
    (∀ u ∈ s.luns, u.store.wf) ∧ (∃ t, exec .evRxReadyData s = .next t) ∧
      ∀ x ∈ [(0, 3), (0, 7), (1, 4)], ∀ y ∈ storedRange .evRxReadyData s,
        x.1 ≠ y.1 ∨ x.2 < y.2.1 ∨ y.2.1 + y.2.2 ≤ x.2 :=
  ⟨by decide, ⟨_, rfl⟩, by decide⟩

/-- The entry, an exit, and a phase error that lasts through a notification. -/
theorem test_witness_PhaseErrorHasOnlyItsEntryAndItsExits :
    (let s := { ready with rxq := [[0x00]] }
     ∃ t, exec .evRxReady s = .next t ∧ s.ctx.phaseError = false ∧ t.ctx.phaseError = true) ∧
    (let s := { ready with ctx := { ready.ctx with phaseError := true }, rxq := [cbwTur] }
     (∃ t, exec .botReset s = .next t ∧ s.ctx.phaseError = true ∧ t.ctx.phaseError = false) ∧
       ∃ t, exec .evRxReady s = .next t ∧ t.ctx.phaseError = true) :=
  ⟨⟨_, rfl, rfl, rfl⟩, ⟨_, rfl, rfl, rfl⟩, ⟨_, rfl, rfl⟩⟩

/-- A halt bit set by STATUS entry, and one cleared by CLEAR_FEATURE. -/
theorem test_witness_HaltBitsHaveOnlyTheirWriters :
    (let s := running .none .dirIn 512
     ∃ t, exec .dispatchDone s = .next t ∧ s.halted .tx = false ∧ t.halted .tx = true) ∧
    (let s := { ready with haltRx := true }
     ∃ t, exec (.clearFeatureEndpointHalt .rx) s = .next t ∧ s.halted .rx = true ∧
       t.halted .rx = false) := ⟨⟨_, rfl, rfl, rfl⟩, ⟨_, rfl, rfl, rfl⟩⟩

/-- Three of the moves. -/
theorem test_witness_TransportStateMovesOnlyAlongTheTable :
    (∃ t, exec .evConfig { ready with ctx := Ctx.powerOn } = .next t ∧ t.ctx.st = .cbwWait) ∧
    (∃ t, exec .evRxReady { ready with rxq := [cbwTur] } = .next t ∧ t.ctx.st = .dispatched) ∧
    (∃ t, exec .dispatchDone (running .none .dirIn 0) = .next t ∧ t.ctx.st = .status) :=
  ⟨⟨_, rfl, rfl⟩, ⟨_, rfl, rfl⟩, ⟨_, rfl, rfl⟩⟩

/-- Busy set by a CBW and cleared by STATUS entry. -/
theorem test_witness_BusyChangesAreAnnouncedToLinkPower :
    (∃ t, exec .evRxReady { ready with rxq := [cbwTur] } = .next t ∧ t.ctx.busy = true) ∧
    (∃ t, exec .dispatchDone (running .none .dirIn 0) = .next t ∧ t.ctx.busy = false) :=
  ⟨⟨_, rfl, rfl⟩, ⟨_, rfl, rfl⟩⟩

theorem test_witness_CswCarriesTheTagOfItsCommand :
    (∃ t, exec (.verify (hdr 0x12 0 .dirOut 0)) ready = .next t) ∧
    (∃ t, exec .evSuspend ready = .next t) ∧
    (let s := running .none .dirIn 512
     ∃ t, exec .dispatchDone s = .next t ∧ t.ctx.st ≠ s.ctx.st) :=
  ⟨⟨_, rfl⟩, ⟨_, rfl⟩, ⟨_, rfl, by decide⟩⟩

/-- Two full buffers and a short one; and exactly one full buffer. -/
theorem test_witness_ResponseReachesTxWholeInFullBuffers :
    ∀ p ∈ [(65, 3), (32, 1)],
      let bytes := List.replicate p.1 (0x20 : Byte)
      let s := { running (.resp bytes 0 bytes.length) .dirIn (BitVec.ofNat 32 p.1) with
                 cfg := { Config.default with bufCap := 32 } }
      s.ctx.st = .dispatched ∧ 1 ≤ s.cfg.bufCap ∧ bytes ≠ [] ∧
        s.ctx.xfer = .resp bytes 0 bytes.length ∧ s.ctx.residue.toNat = bytes.length ∧
        p.2 = (bytes.length + s.cfg.bufCap - 1) / s.cfg.bufCap ∧
        s.env.acquires = List.replicate p.2 .buffer ++ List.replicate (4 - p.2) .buffer ∧
        s.env.commits = List.replicate p.2 .ok ++ List.replicate (4 - p.2) .ok := by decide

/-- Scenario B: one block; and the last three blocks of a store, in three buffers. -/
theorem test_witness_ReadDeliversTheBlocksAndASuccessfulCsw :
    ∀ p ∈ [((0 : Word), (1 : BitVec 16), 1), (2045, 3, 3)],
      let s := running .none .dirIn 0
      let h := hdr 0x30 (BitVec.ofNat 32 (p.2.1.toNat * 512)) .dirIn 0
      s.ctx.st = .dispatched ∧ s.ctx.wedged = false ∧ 1 ≤ s.cfg.bufCap ∧
        s.luns[h.lun.toNat]? = some lun0 ∧ h.dir = .dirIn ∧ h.xferLen ≠ 0 ∧
        h.xferLen.toNat = p.2.1.toNat * lun0.blockSize ∧ lun0.mediaPresent = true ∧
        lun0.stopped = false ∧ p.1.toNat + p.2.1.toNat ≤ lun0.blockCount ∧
        p.2.2 = (p.2.1.toNat * lun0.blockSize + s.cfg.bufCap - 1) / s.cfg.bufCap ∧
        s.env.acquires = List.replicate (p.2.2 + 1) .buffer ++ List.replicate (3 - p.2.2) .buffer ∧
        s.env.commits = List.replicate (p.2.2 + 1) .ok ++ List.replicate (3 - p.2.2) .ok := by decide

/-- The last block of a small store, in two buffers of 1 and 3 bytes. -/
theorem test_witness_WriteStoresThePayloadHoweverItIsSplit :
    let s := { running .none .dirOut 0 with luns := [small] }
    let h := hdr 0x37 4 .dirOut 0
    let bufs : List Buffer := [[0xAA], [0xBB, 0x00, 0xCC]]
    s.ctx.st = .dispatched ∧ s.ctx.wedged = false ∧ (∀ v ∈ s.luns, v.store.wf) ∧
      s.luns[h.lun.toNat]? = some small ∧ h.dir = .dirOut ∧ h.xferLen ≠ 0 ∧
      h.xferLen.toNat = BitVec.toNat (1 : BitVec 16) * small.blockSize ∧ small.mediaPresent = true ∧
      small.stopped = false ∧
      BitVec.toNat (7 : Word) + BitVec.toNat (1 : BitVec 16) ≤ small.blockCount ∧
      (∀ b ∈ bufs, 1 ≤ b.length) ∧ bufs.flatten.length = BitVec.toNat (1 : BitVec 16) * small.blockSize ∧
      s.env.acquires = List.replicate (bufs.length + 1) .buffer ++ [.buffer] ∧
      s.env.commits = .ok :: [.ok, .ok, .ok] := by decide

end Sys2Proof.Tests
end

section
/-! PROOFS. Scope: what an environment's turn leaves unchanged (R8, R40), and the quiescent states of the
worker (R11). -/

namespace Sys2Proof.Machine

/-! ### The turn a step runs (R301, R357) -/

/-- A step that answers a next state ran under a configuration R6 admits. -/
theorem configInRange_of_step_next {s t : State} (h : step s = .next t) : configInRange s.cfg = true := by
  by_contra hcfg
  simp [step, hcfg] at h

theorem step_unscheduled {s : State} (hcfg : configInRange s.cfg = true) (hs : s.env.schedule = []) :
    step s = runTaken (unscheduledStep s) s := by
  simp only [step, hcfg, hs, if_true]

theorem step_rxFill {s : State} {bytes : Buffer} {rest : List Turn} (hcfg : configInRange s.cfg = true)
    (hs : s.env.schedule = .rxFill bytes :: rest) : step s = .next (rxFill bytes (s.setSchedule rest)) := by
  simp only [step, hcfg, hs, if_true]

theorem step_txDrain {s : State} {rest : List Turn} (hcfg : configInRange s.cfg = true)
    (hs : s.env.schedule = .txDrain :: rest) : step s = .next (txDrain (s.setSchedule rest)) := by
  simp only [step, hcfg, hs, if_true]

theorem step_post {s : State} {e : Event} {rest : List Turn} (hcfg : configInRange s.cfg = true)
    (hs : s.env.schedule = .post e :: rest) : step s = .next (postEvent e (s.setSchedule rest)) := by
  simp only [step, hcfg, hs, if_true]

/-! ### What the environment can do (R141, R142, R355) -/

theorem rxFill_cases (bytes : Buffer) (s : State) :
    rxFill bytes s = s ∨
      rxFill bytes s = ({ s with rxq := s.rxq ++ [bytes] } : State).enqueue .rxReady := by
  unfold rxFill
  split
  · exact .inr rfl
  · exact .inl rfl

theorem txDrain_cases (s : State) :
    txDrain s = s ∨
      ∃ b q, s.txq = b :: q ∧ s.haltTx = false ∧
        txDrain s = ({ s with txq := q, hostRx := s.hostRx ++ [b] } : State).enqueue .txDrained := by
  cases hq : s.txq with
  | nil => exact .inl (by simp only [txDrain, hq])
  | cons b q =>
    cases hh : s.haltTx
    · exact .inr ⟨b, q, rfl, rfl, by simp [txDrain, hq, hh]⟩
    · exact .inl (by simp [txDrain, hq, hh])

theorem postEvent_cases (e : Event) (s : State) : postEvent e s = s ∨ postEvent e s = s.enqueue e := by
  unfold postEvent
  split
  · exact .inr rfl
  · exact .inl rfl

/-- The frame of the environment (R8, R40): the block's own registers, stores, halts and trace stand, and the
event queue has at most one event more, at its end. -/
structure BlockKept (s t : State) : Prop where
  ctx : t.ctx = s.ctx
  luns : t.luns = s.luns
  haltRx : t.haltRx = s.haltRx
  haltTx : t.haltTx = s.haltTx
  trace : t.trace = s.trace
  cfg : t.cfg = s.cfg
  evq : t.evq = s.evq ∨ ∃ e, t.evq = s.evq ++ [e]

theorem BlockKept.refl (s : State) : BlockKept s s := ⟨rfl, rfl, rfl, rfl, rfl, rfl, .inl rfl⟩

/-- The shape all three environment steps share: pipe buffers move and one event is posted. -/
theorem blockKept_buffers_enqueue (s : State) (rxq txq hostRx : List Buffer) (e : Event) :
    BlockKept s (({ s with rxq := rxq, txq := txq, hostRx := hostRx } : State).enqueue e) :=
  ⟨rfl, rfl, rfl, rfl, rfl, rfl, .inr ⟨e, rfl⟩⟩

theorem rxFill_blockKept (bytes : Buffer) (s : State) : BlockKept s (rxFill bytes s) := by
  rcases rxFill_cases bytes s with h | h <;> rw [h]
  · exact .refl s
  · exact blockKept_buffers_enqueue s _ s.txq s.hostRx _

theorem txDrain_blockKept (s : State) : BlockKept s (txDrain s) := by
  rcases txDrain_cases s with h | ⟨b, q, -, -, h⟩ <;> rw [h]
  · exact .refl s
  · exact blockKept_buffers_enqueue s s.rxq _ _ _

theorem postEvent_blockKept (e : Event) (s : State) : BlockKept s (postEvent e s) := by
  rcases postEvent_cases e s with h | h <;> rw [h]
  · exact .refl s
  · exact blockKept_buffers_enqueue s s.rxq s.txq s.hostRx e

/-- Every turn that is not the worker's keeps the block, seen from the state with the turn consumed. -/
theorem step_environment_blockKept {s t : State} {turn : Turn} {rest : List Turn}
    (hs : s.env.schedule = turn :: rest) (hturn : ∀ p, turn ≠ .worker p) (h : step s = .next t) :
    BlockKept (s.setSchedule rest) t := by
  have hcfg := configInRange_of_step_next h
  cases turn with
  | worker pick => exact absurd rfl (hturn pick)
  | rxFill bytes =>
    rw [step_rxFill hcfg hs] at h
    injection h with h
    exact h ▸ rxFill_blockKept bytes _
  | txDrain =>
    rw [step_txDrain hcfg hs] at h
    injection h with h
    exact h ▸ txDrain_blockKept _
  | post e =>
    rw [step_post hcfg hs] at h
    injection h with h
    exact h ▸ postEvent_blockKept e _

/-- Settles O14: the frame of the environment's turns, and consuming a turn touches the schedule alone. -/
theorem environmentStepsLeaveTheBlockUnchanged : Obligations.EnvironmentStepsLeaveTheBlockUnchanged := by
  intro s t turn rest hs hturn h
  obtain ⟨hctx, hluns, hrx, htx, htrace, hcfg, hevq⟩ := step_environment_blockKept hs hturn h
  exact ⟨hctx, hluns, hrx, htx, htrace, hcfg, hevq⟩

/-! ### Quiescence of the worker (R11, R181, R185, R285) -/

/-- No internal step is enabled exactly in the states R11 names. -/
theorem internalStep_eq_none_iff (s : State) :
    internalStep s = none ↔
      s.ctx.st ≠ .dispatched ∨ s.ctx.xfer.isWrite = true ∨ s.ctx.wedged = true := by
  unfold internalStep
  by_cases hen : s.ctx.st = .dispatched ∧ s.ctx.wedged = false
  · rw [if_pos hen]
    obtain ⟨hst, hw⟩ := hen
    cases s.ctx.xfer <;> simp [Xfer.isWrite, hst, hw]
  · rw [if_neg hen]
    refine iff_of_true rfl ?_
    by_cases hst : s.ctx.st = .dispatched
    · exact .inr (.inr (by simpa [hst] using hen))
    · exact .inl hst

/-- The two internal steps and the states that enable them. -/
theorem internalStep_eq_some {s : State} {i : Instr} (h : internalStep s = some i) :
    s.ctx.st = .dispatched ∧ s.ctx.wedged = false ∧
      ((i = .dispatchDone ∧ s.ctx.xfer = .none) ∨
        (i = .dataStepTx ∧ s.ctx.xfer ≠ .none ∧ s.ctx.xfer.isWrite = false)) := by
  unfold internalStep at h
  split at h
  next hen =>
    obtain ⟨hst, hw⟩ := hen
    refine ⟨hst, hw, ?_⟩
    cases hx : s.ctx.xfer <;> simp_all [Xfer.isWrite]
  next => cases h

/-- With no event queued, the unscheduled worker takes the enabled internal step, if there is one. -/
theorem unscheduledStep_of_no_event {s : State} (hq : s.evq = []) :
    unscheduledStep s = (internalStep s).map fun i => (i, s) := by
  cases hi : internalStep s <;> simp [unscheduledStep, workerStep, takeEvent, hi, hq]

/-- An enabled DataStepTx sends one chunk (R181). -/
theorem exec_dataStepTx_sends {s : State} (hst : s.ctx.st = .dispatched) (hx : s.ctx.xfer ≠ .none)
    (hwr : s.ctx.xfer.isWrite = false) : ∃ n chunk, exec .dataStepTx s = sendChunk n chunk s := by
  have e : exec .dataStepTx s = execDataStepTx s := rfl
  rw [e, execDataStepTx, if_pos hst]
  cases hk : s.ctx.xfer with
  | none => exact absurd hk hx
  | resp bytes pos remaining => exact ⟨_, _, rfl⟩
  | rd pos remaining => exact ⟨_, _, rfl⟩
  | wr pos remaining => simp [hk, Xfer.isWrite] at hwr

/-- Sending a chunk never stands still: a failure ends the data phase, a success adds a buffer to `TX.q`. -/
theorem sendChunk_ne_next_self {s : State} (n : Nat) (chunk : Option (List Byte))
    (hx : s.ctx.xfer ≠ .none) : sendChunk n chunk s ≠ .next s := by
  intro h
  rcases sendChunk_next n chunk s s h with ⟨env, hfail⟩ | ⟨bytes, env, -, hsent⟩
  · exact hx (congrArg (fun t : State => t.ctx.xfer) hfail)
  · have htxq : s.txq = s.txq ++ [bytes] := congrArg State.txq hsent
    simp at htxq

/-- STATUS entry never stands still: it leaves `DISPATCHED`, or the block becomes stuck (R280, R285). -/
theorem enterStatus_ne_self {s : State} (hst : s.ctx.st = .dispatched) (hw : s.ctx.wedged = false) :
    enterStatus s ≠ s := by
  intro h
  rcases enterStatus_cases s with ⟨_, _, _, _, _, -, hdone⟩ | ⟨_, _, _, hstuck⟩
  · have hst' : s.ctx.st = .status := congrArg (fun t : State => t.ctx.st) (h.symm.trans hdone)
    simp [hst] at hst'
  · have hw' : s.ctx.wedged = true := congrArg (fun t : State => t.ctx.wedged) (h.symm.trans hstuck)
    simp [hw] at hw'

theorem exec_dispatchDone_enabled {s : State} (hst : s.ctx.st = .dispatched) (hx : s.ctx.xfer = .none)
    (hw : s.ctx.wedged = false) : exec .dispatchDone s = .next (enterStatus s) := by
  have e : exec .dispatchDone s = execDispatchDone s := rfl
  rw [e, execDispatchDone, if_pos ⟨hst, hx, hw⟩]

/-- An enabled internal step always changes the state. -/
theorem exec_internalStep_ne_next_self {s : State} {i : Instr} (h : internalStep s = some i) :
    exec i s ≠ .next s := by
  obtain ⟨hst, hw, ⟨rfl, hx⟩ | ⟨rfl, hx, hwr⟩⟩ := internalStep_eq_some h
  · rw [exec_dispatchDone_enabled hst hx hw]
    intro hself
    injection hself with hself
    exact enterStatus_ne_self hst hw hself
  · obtain ⟨n, chunk, e⟩ := exec_dataStepTx_sends hst hx hwr
    rw [e]
    exact sendChunk_ne_next_self n chunk hx

/-- Settles O10: with nothing queued or scheduled the worker waits exactly when no internal step is enabled,
since an enabled one changes the state. -/
theorem quiescentStatesAreExactlyThoseOfTheSpec :
    Obligations.QuiescentStatesAreExactlyThoseOfTheSpec := by
  intro s hinv hs hq
  rw [← internalStep_eq_none_iff, step_unscheduled hinv.config hs, unscheduledStep_of_no_event hq]
  cases hi : internalStep s with
  | none => simp [runTaken]
  | some i => simpa [runTaken] using exec_internalStep_ne_next_self hi

end Sys2Proof.Machine
end

section
/-! PROOFS. Scope: everything an instruction can do, told once by `Effect`, with the field laws of the reset
rules it rests on; later proofs about the whole instruction set split `Effect` and never unfold a meaning. -/

namespace Sys2Proof.Machine

/-! ### The rules with a fixed effect, as one update (R302, R303, R306, R334) -/

/-- The context the cancellation of R184 leaves. -/
def cancelledCtx (c : Ctx) : Ctx := { c with busy := false, xfer := .none, residue := 0, wedged := false }

theorem execEvConfig_eq (s : State) : ∃ trace, execEvConfig s = .next
    { s with
      ctx := { cancelledCtx s.ctx with st := .cbwWait }
      haltRx := s.ctx.phaseError || s.haltRx
      haltTx := s.ctx.phaseError || s.haltTx
      luns := s.luns.map fun u => { u with stopped := false }
      rxq := [], txq := [], trace := trace } := by
  cases hpe : s.ctx.phaseError <;>
    simp [execEvConfig, cancelCommand_eq, stallBoth_eq, State.setSt, startAllUnits, flushPipes, pipeReset,
      State.emit, hpe, cancelledCtx]

theorem busReset_eq (s : State) : ∃ trace, busReset s =
    { s with
      ctx := { cancelledCtx s.ctx with phaseError := false, st := .inactive }
      haltRx := false, haltTx := false, rxq := [], txq := [], trace := trace } :=
  ⟨_, by rw [busReset, cancelCommand_eq]; rfl⟩

theorem execBotReset_eq {s : State} (hst : s.ctx.st ≠ .inactive) : ∃ trace, execBotReset s = .next
    { s with
      ctx := { cancelledCtx s.ctx with phaseError := false, st := .cbwWait }
      rxq := [], txq := [], trace := trace } :=
  ⟨_, by rw [execBotReset, if_neg hst]; dsimp only; rw [cancelCommand_eq]; rfl⟩

theorem execEvTxDrained_eq {s : State} (hst : s.ctx.st = .status) (hw : s.ctx.wedged = false) :
    ∃ trace, execEvTxDrained s = .next
      { s with
        ctx := { s.ctx with st := .cbwWait }
        haltRx := s.ctx.phaseError || s.haltRx
        haltTx := s.ctx.phaseError || s.haltTx
        trace := trace } := by
  cases hpe : s.ctx.phaseError <;>
    simp [execEvTxDrained, hst, hw, hpe, stallBoth_eq, State.setSt]

theorem execClearFeature_eq (ep : Endpoint) (s : State) : ∃ trace, execClearFeatureEndpointHalt ep s = .next
    { (if s.ctx.phaseError then s else s.setHalt ep false) with trace := trace } := by
  cases hpe : s.ctx.phaseError <;> cases hss : s.cfg.superspeed <;>
    exact ⟨_, by simp [execClearFeatureEndpointHalt, hpe, hss, unstall, State.emit]; rfl⟩

/-! ### What a command can do (R170, R178) -/

/-- How a command that passes every test or fails one ends: it fails with a sense, it sets up its data phase
(none for a status-only command), or it is one of the two that write a LUN record on success. -/
inductive CommandOutcome (h : CbwHeader) (s : State) : Instr → State → Prop
  | failed {i : Instr} (x : Sense) : CommandOutcome h s i (commandFail x (loadCommand h s))
  | passed {i : Instr} (x : Xfer) : dataPhaseOk ((loadCommand h s).setXfer x) →
      CommandOutcome h s i ((loadCommand h s).setXfer x)
  | unitSwitched (loej start : Bool) :
      CommandOutcome h s (.startStopUnit h loej start)
        ((loadCommand h s).modifyLun h.lun.toNat fun u => { u with stopped := stoppedAfter loej start })
  | senseReported (x : Xfer) : dataPhaseOk ((loadCommand h s).setXfer x) →
      CommandOutcome h s (.requestSense h)
        (recordSense h.lun.toNat .ok ((loadCommand h s).setXfer x))

/-- The dispatcher's tests fail a command, or its handler decides (R170). -/
theorem runCommand_outcome (h : CbwHeader) (i : Instr) (p : Lun → Policy) (f : Lun → State → State) (s : State)
    (hf : ∀ u, s.luns[h.lun.toNat]? = some u → (p u).accepts h →
      CommandOutcome h s i (f u (loadCommand h s))) :
    CommandOutcome h s i (runCommand h p f s) := by
  rcases runCommand_cases h p f s with ⟨-, e⟩ | ⟨u, hu, ⟨-, e⟩ | ⟨-, -, e⟩ | ⟨hm, -, e⟩⟩ <;> rw [e]
  · exact .failed _
  · exact .failed _
  · exact .failed _
  · exact hf u hu ((lengthMatches_iff _ _ _).mp hm)

theorem rejectCommand_outcome (h : CbwHeader) (i : Instr) (x : Sense) (s : State) :
    CommandOutcome h s i (rejectCommand h x s) := by
  rcases rejectCommand_cases h x s with ⟨-, e⟩ | ⟨u, -, e⟩ <;> rw [e]
  · exact .failed _
  · exact .failed _

/-- A handler that does nothing sets up no data phase (R200 to R202). -/
theorem statusOnly_outcome (h : CbwHeader) (i : Instr) (s : State) :
    CommandOutcome h s i (runCommand h (fun _ => statusOnlyPolicy) (fun _ s => s) s) :=
  runCommand_outcome h i _ _ s fun _ _ _ => .passed .none trivial

/-- A response of the length the policy asks for is a consistent data phase (R174, R180). -/
theorem dataPhaseOk_setupResp (h : CbwHeader) (bytes : List Byte) (p : Policy) (s : State)
    (hp : p.dataPhase = some ⟨.dirIn, bytes.length⟩) (ha : p.accepts h) :
    dataPhaseOk ((loadCommand h s).setXfer (.resp bytes 0 bytes.length)) := by
  simp only [Policy.accepts, hp] at ha
  obtain ⟨hne, hdir, hlen⟩ := ha
  have hpos : h.xferLen.toNat ≠ 0 := fun e => hne (BitVec.eq_of_toNat_eq e)
  exact ⟨by omega, hlen, hdir, by omega⟩

/-- A command that answers a response block of its policy's length (R180). -/
theorem response_outcome (h : CbwHeader) (i : Instr) (p : Policy) (bytes : Lun → State → List Byte) (s : State)
    (hp : ∀ u, p.dataPhase = some ⟨.dirIn, (bytes u (loadCommand h s)).length⟩) :
    CommandOutcome h s i (runCommand h (fun _ => p) (fun u t => setupResp (bytes u t) t) s) :=
  runCommand_outcome h i _ _ s fun u _ ha =>
    .passed _ (dataPhaseOk_setupResp h _ p s (hp u) ha)

/-- A range check that passes keeps the whole transfer inside the store (R62, R252). -/
theorem rangeOk_capacity {lba : Word} {count : BitVec 16} {u : Lun} (h : rangeOk lba count u = true) :
    lba.toNat * u.blockSize + count.toNat * u.blockSize ≤ u.capacity := by
  have hle : lba.toNat + count.toNat ≤ u.blockCount := by simpa [rangeOk] using h
  calc lba.toNat * u.blockSize + count.toNat * u.blockSize
      = u.blockSize * (lba.toNat + count.toNat) := by ring
    _ ≤ u.capacity := Nat.mul_le_mul_left _ hle

/-- READ(10) and WRITE(10) fail the range check or set up a descriptor inside the store (R250, R251). -/
theorem transfer_outcome (h : CbwHeader) (i : Instr) (dir : Dir) (lba : Word) (count : BitVec 16)
    (kind : Nat → Nat → Xfer) (hkind : (dir = .dirIn ∧ kind = .rd) ∨ (dir = .dirOut ∧ kind = .wr)) (s : State) :
    CommandOutcome h s i (runCommand h (transferPolicy dir count)
      (fun u s => if rangeOk lba count u then
        s.setXfer (kind (lba.toNat * u.blockSize) (count.toNat * u.blockSize))
        else commandFail .invalidLba s) s) := by
  refine runCommand_outcome h i _ _ s fun u hu ha => ?_
  obtain ⟨hne, hdir, hlen⟩ : h.xferLen ≠ 0 ∧ h.dir = dir ∧ h.xferLen.toNat = count.toNat * u.blockSize := ha
  have hpos : h.xferLen.toNat ≠ 0 := fun e => hne (BitVec.eq_of_toNat_eq e)
  split
  next hr =>
    have hcap : selectedCapacity (loadCommand h s) = u.capacity := by simp [selectedCapacity, hu]
    have hin := hcap ▸ rangeOk_capacity hr
    refine .passed _ ?_
    rcases hkind with ⟨rfl, rfl⟩ | ⟨rfl, rfl⟩ <;> exact ⟨by omega, hlen, hdir, hin⟩
  next => exact .failed _

theorem exec_command_outcome {i : Instr} {s t : State} {h : CbwHeader} (hi : i.header = some h)
    (he : exec i s = .next t) : CommandOutcome h s i t := by
  cases i <;> try (cases hi; done)
  all_goals
    injection hi with hi
    subst hi
    injection he with he
    subst he
  case testUnitReady => exact statusOnly_outcome _ _ s
  case verify => exact statusOnly_outcome _ _ s
  case preventAllow => exact statusOnly_outcome _ _ s
  case unknown => exact rejectCommand_outcome _ _ _ s
  case inquiryVpdUnsupported => exact rejectCommand_outcome _ _ _ s
  case inquiryStd => exact response_outcome _ _ _ _ s fun _ => rfl
  case inquiryVpdSupportedPages => exact response_outcome _ _ _ _ s fun _ => rfl
  case inquiryVpdSerialNumber => exact response_outcome _ _ _ _ s fun _ => rfl
  case inquiryVpdDeviceId => exact response_outcome _ _ _ _ s fun _ => rfl
  case inquiryVpdBlockLimits => exact response_outcome _ _ _ _ s fun _ => rfl
  case modeSense6 => exact response_outcome _ _ _ _ s fun _ => by simp [mediaResponsePolicy, Config.mode6Len]
  case readCapacity => exact response_outcome _ _ _ _ s fun _ => by simp [mediaResponsePolicy]
  case readFormatCapacity => exact response_outcome _ _ _ _ s fun _ => by simp [mediaResponsePolicy]
  case requestSense h =>
    exact runCommand_outcome _ _ _ _ s fun u _ ha =>
      .senseReported _ (dataPhaseOk_setupResp h _ _ s (by simp [alwaysReadyPolicy]) ha)
  case startStopUnit => exact runCommand_outcome _ _ _ _ s fun _ _ _ => .unitSwitched _ _
  case read10 => exact transfer_outcome _ _ .dirIn _ _ .rd (.inl ⟨rfl, rfl⟩) s
  case write10 => exact transfer_outcome _ _ .dirOut _ _ .wr (.inr ⟨rfl, rfl⟩) s

/-! ### The fields a command keeps -/

section frame

variable {h : CbwHeader} {s t : State}

theorem CommandFrame.eq (hf : CommandFrame h s t) :
    t = { s.withCommand h h.xferLen t.ctx.status t.ctx.xfer with luns := t.luns } := hf
theorem CommandFrame.ctx (hf : CommandFrame h s t) :
    t.ctx = (s.withCommand h h.xferLen t.ctx.status t.ctx.xfer).ctx := (congrArg State.ctx hf.eq :)
theorem CommandFrame.cfg (hf : CommandFrame h s t) : t.cfg = s.cfg := (congrArg State.cfg hf.eq :)
theorem CommandFrame.evq (hf : CommandFrame h s t) : t.evq = s.evq := (congrArg State.evq hf.eq :)
theorem CommandFrame.rxq (hf : CommandFrame h s t) : t.rxq = s.rxq := (congrArg State.rxq hf.eq :)
theorem CommandFrame.txq (hf : CommandFrame h s t) : t.txq = s.txq := (congrArg State.txq hf.eq :)
theorem CommandFrame.trace (hf : CommandFrame h s t) : t.trace = s.trace := (congrArg State.trace hf.eq :)
theorem CommandFrame.halted (hf : CommandFrame h s t) (ep : Endpoint) : t.halted ep = s.halted ep := by
  cases ep
  · exact (congrArg State.haltRx hf.eq :)
  · exact (congrArg State.haltTx hf.eq :)

end frame

theorem command_frame_of_format {i : Instr} {s t : State} (hf : i.format = .cbw) (he : exec i s = .next t) :
    ∃ h, i.header = some h ∧ CommandFrame h s t := by
  obtain ⟨h, hi⟩ := (format_eq_cbw_iff i).mp hf
  exact ⟨h, hi, command_frame i s t h hi he⟩

/-! ### What every instruction can do -/


/-- Everything an instruction can do, when it answers a next state. The trace is left free: a separate
law says what must stand on it. -/
inductive Effect (s : State) : Instr → State → Prop
  | command {i : Instr} {t : State} (h : CbwHeader) : i.header = some h → CommandFrame h s t →
      CommandOutcome h s i t → Effect s i t
  | received {i : Instr} {t : State} :
      i = .evRxReady ∨ (i = .evRxReadyData ∧ s.ctx.st = .dispatched) → RxOutcome s t → Effect s i t
  | dataStep {t : State} : DataStepOutcome s t → Effect s .dataStepTx t
  | cswQueued (haltRx haltTx : Bool) (csw : Buffer) (trace : List Action) (env : Env) :
      s.ctx.st = .dispatched → s.ctx.xfer = .none → s.ctx.wedged = false → csw.length = 13 →
      (s.haltRx = true → haltRx = true) → (s.haltTx = true → haltTx = true) →
      Effect s .dispatchDone
        { s with ctx := { s.ctx with busy := false, residue := 0, st := .status }, haltRx := haltRx
                 haltTx := haltTx, txq := s.txq ++ [csw], trace := trace, env := env }
  | cswStuck (haltRx : Bool) (trace : List Action) (env : Env) :
      s.ctx.st = .dispatched → s.ctx.xfer = .none → (s.haltRx = true → haltRx = true) →
      Effect s .dispatchDone
        { s with ctx := { s.ctx with wedged := true }, haltRx := haltRx, trace := trace, env := env }
  /-- No register changes: a request that is only answered, a stale or disabled step. -/
  | answered {i : Instr} (trace : List Action) : i.header = none → Effect s i { s with trace := trace }
  | haltCleared {i : Instr} (ep : Endpoint) (trace : List Action) :
      i = .clearFeatureEndpointHalt ep ∨ i = .evCtrl (.clearHalt ep) → s.ctx.phaseError = false →
      Effect s i { s.setHalt ep false with trace := trace }
  | configured (trace : List Action) :
      Effect s .evConfig
        { s with ctx := { cancelledCtx s.ctx with st := .cbwWait }
                 haltRx := s.ctx.phaseError || s.haltRx, haltTx := s.ctx.phaseError || s.haltTx
                 luns := s.luns.map fun u => { u with stopped := false }
                 rxq := [], txq := [], trace := trace }
  | busReset {i : Instr} (trace : List Action) : i = .evBusReset ∨ i = .evDisconnect →
      Effect s i
        { s with ctx := { cancelledCtx s.ctx with phaseError := false, st := .inactive }
                 haltRx := false, haltTx := false, rxq := [], txq := [], trace := trace }
  | botReset {i : Instr} (trace : List Action) : i = .botReset ∨ i = .evCtrl .botReset →
      Effect s i
        { s with ctx := { cancelledCtx s.ctx with phaseError := false, st := .cbwWait }
                 rxq := [], txq := [], trace := trace }
  | drained (trace : List Action) : s.ctx.st = .status → s.ctx.wedged = false →
      Effect s .evTxDrained
        { s with ctx := { s.ctx with st := .cbwWait }
                 haltRx := s.ctx.phaseError || s.haltRx, haltTx := s.ctx.phaseError || s.haltTx
                 trace := trace }
  | media (l : Nat) (present : Bool) :
      Effect s (.evMedia l present)
        (s.modifyLun l fun u => { u with mediaPresent := present, lastSense := .mediaChanged })

theorem cswBytes_length (tag : Tag) (residue : Word) (status : CswStatus) :
    (cswBytes tag residue status).length = 13 := rfl

theorem execClearFeature_effect {i : Instr} {ep : Endpoint} {s t : State}
    (hi : i = .clearFeatureEndpointHalt ep ∨ i = .evCtrl (.clearHalt ep))
    (h : execClearFeatureEndpointHalt ep s = .next t) : Effect s i t := by
  obtain ⟨trace, e⟩ := execClearFeature_eq ep s
  rw [e] at h
  injection h with h
  subst h
  cases hpe : s.ctx.phaseError
  · exact .haltCleared ep trace hi hpe
  · exact .answered trace (by rcases hi with rfl | rfl <;> rfl)

theorem execBotReset_effect {i : Instr} {s t : State} (hi : i = .botReset ∨ i = .evCtrl .botReset)
    (h : execBotReset s = .next t) : Effect s i t := by
  by_cases hst : s.ctx.st = .inactive
  · rw [execBotReset, if_pos hst] at h
    injection h with h
    subst h
    exact .answered _ (by rcases hi with rfl | rfl <;> rfl)
  · obtain ⟨trace, e⟩ := execBotReset_eq hst
    rw [e] at h
    injection h with h
    subst h
    exact .botReset trace hi

theorem execEvCtrl_effect {req : CtrlRequest} {s t : State} (h : execEvCtrl req s = .next t) :
    Effect s (.evCtrl req) t := by
  cases req with
  | clearHalt ep => exact execClearFeature_effect (.inr rfl) h
  | getMaxLun =>
    injection h with h
    subst h
    exact .answered _ rfl
  | botReset => exact execBotReset_effect (.inr rfl) h
  | setFeatureHalt ep => cases h
  | getStatus => cases h
  | setInterface => cases h
  | getInterface => cases h

/-- STATUS entry clears no halt (R283 to R285). -/
theorem enterStatus_halted_of (s : State) (ep : Endpoint) (h : s.halted ep = true) :
    (enterStatus s).halted ep = true := by
  have hstall : (stallUnfinishedOut s).halted ep = true := by
    rw [stallUnfinishedOut_eq]
    cases ep <;> simp_all [State.halted]
  rcases queueTx_cases (cswBytes (stallUnfinishedOut s).ctx.tag (stallUnfinishedOut s).ctx.residue
    (stallUnfinishedOut s).ctx.status) (stallUnfinishedOut s) with ⟨-, -, e⟩ | ⟨-, e⟩ | ⟨-, -, e⟩
  · simp only [enterStatus, e, finishCommand, stallShortIn_eq]
    cases ep <;> simp_all [State.halted]
  · simp only [enterStatus, e]
    exact hstall
  · simp only [enterStatus, e]
    exact hstall

theorem execDispatchDone_effect {s t : State} (h : execDispatchDone s = .next t) : Effect s .dispatchDone t := by
  unfold execDispatchDone at h
  split at h <;> injection h with h <;> subst h
  next hen =>
    obtain ⟨hst, hx, hw⟩ := hen
    have hrx := enterStatus_halted_of s .rx
    have htx := enterStatus_halted_of s .tx
    rcases enterStatus_cases s with ⟨haltRx, haltTx, trace, env, csw, rfl, e⟩ | ⟨haltRx, trace, env, e⟩ <;>
      rw [e] at hrx htx ⊢
    · exact .cswQueued _ _ _ _ _ hst hx hw (cswBytes_length _ _ _) hrx htx
    · exact .cswStuck _ _ _ hst hx hrx
  next => exact .answered s.trace rfl

theorem execEvTxDrained_effect {s t : State} (h : execEvTxDrained s = .next t) : Effect s .evTxDrained t := by
  by_cases hen : s.ctx.st = .status ∧ s.ctx.wedged = false
  · obtain ⟨hst, hw⟩ := hen
    obtain ⟨trace, e⟩ := execEvTxDrained_eq hst hw
    rw [e] at h
    injection h with h
    subst h
    exact .drained trace hst hw
  · rw [execEvTxDrained, if_neg hen] at h
    injection h with h
    subst h
    exact .answered s.trace rfl

/-- While a command runs the two rows of a received buffer mean the same (R112, R150). -/
theorem exec_evRxReadyData_dispatched {s : State} (hst : s.ctx.st = .dispatched) :
    exec .evRxReadyData s = exec .evRxReady s := by
  have e : exec .evRxReadyData s = execEvRxReadyData s := rfl
  have e' : exec .evRxReady s = execEvRxReady s := rfl
  simp only [e, e', execEvRxReadyData, execEvRxReady, hst]
  rfl

/-- Outside `DISPATCHED` no WRITE(10) awaits payload (R112). -/
theorem exec_evRxReadyData_idle {s : State} (hst : s.ctx.st ≠ .dispatched) : exec .evRxReadyData s = .next s := by
  have e : exec .evRxReadyData s = execEvRxReadyData s := rfl
  simp [e, execEvRxReadyData, hst]

/-- An event whose meaning is one update of the state. -/
theorem effect_of_eq {i : Instr} {s t u : State} (ht : exec i s = .next t) (hu : exec i s = .next u)
    (h : Effect s i u) : Effect s i t := by
  rw [hu] at ht
  injection ht with ht
  exact ht ▸ h

theorem exec_effect {i : Instr} {s t : State} (he : exec i s = .next t) : Effect s i t := by
  cases hi : i.header with
  | some h => exact .command h hi (command_frame i s t h hi he) (exec_command_outcome hi he)
  | none =>
    cases i <;> try (cases hi; done)
    case clearFeatureEndpointHalt => exact execClearFeature_effect (.inl rfl) he
    case getMaxLun => exact effect_of_eq he rfl (.answered _ rfl)
    case botReset => exact execBotReset_effect (.inl rfl) he
    case evConfig =>
      obtain ⟨trace, e⟩ := execEvConfig_eq s
      exact effect_of_eq he e (.configured trace)
    case evBusReset =>
      obtain ⟨trace, e⟩ := busReset_eq s
      exact effect_of_eq he (congrArg Host.Outcome.next e) (.busReset trace (.inl rfl))
    case evDisconnect =>
      obtain ⟨trace, e⟩ := busReset_eq s
      exact effect_of_eq he (congrArg Host.Outcome.next e) (.busReset trace (.inr rfl))
    case evSuspend => exact effect_of_eq he rfl (.answered s.trace rfl)
    case evRxReady => exact .received (.inl rfl) (exec_rxReady_outcome s t _ (.inl rfl) he)
    case evRxReadyData =>
      by_cases hst : s.ctx.st = .dispatched
      · exact .received (.inr ⟨rfl, hst⟩) (exec_rxReady_outcome s t _ (.inr rfl) he)
      · exact effect_of_eq he (exec_evRxReadyData_idle hst) (.answered s.trace rfl)
    case evTxDrained => exact execEvTxDrained_effect he
    case evCtrl => exact execEvCtrl_effect he
    case evMedia l present =>
      have he : execEvMedia l present s = .next t := he
      unfold execEvMedia at he
      split at he
      · injection he with he
        exact he ▸ .media l present
      · cases he
    case dataStepTx => exact .dataStep (exec_dataStepTx_outcome s t he)
    case dispatchDone => exact execDispatchDone_effect he

end Sys2Proof.Machine
end

section
/-! PROOFS. Scope: the values at power-on (R45), the event queue over every step (R40, R301), and the invariant
of a run: it holds at power-on and every step keeps it (R44, R140, R186, R300). -/

namespace Sys2Proof.Machine

/-! ### What a step runs (R301, R357) -/

/-- Everything a step can do, when it answers a next state. -/
inductive StepOutcome (s : State) : State → Prop
  | waited (env : Env) : StepOutcome s { s with env := env }
  /-- The worker runs an internal step or the row of the head event, which it takes from the queue. -/
  | ran {t : State} (i : Instr) (evq : List Event) (env : Env) : i.header = none →
      evq = s.evq ∨ (∃ e, s.evq = e :: evq) → exec i { s with evq := evq, env := env } = .next t →
      StepOutcome s t
  | filled (bytes : Buffer) (rest : List Turn) : StepOutcome s (rxFill bytes (s.setSchedule rest))
  | drained (rest : List Turn) : StepOutcome s (txDrain (s.setSchedule rest))
  | posted (e : Event) (rest : List Turn) : StepOutcome s (postEvent e (s.setSchedule rest))

/-- No event is a SCSI command: its row has no CBW header (R106). -/
theorem instrOfEvent_header (e : Event) (s : State) : (instrOfEvent e s).header = none := by
  cases e
  case rxReady =>
    unfold instrOfEvent
    dsimp only
    split <;> rfl
  all_goals rfl

theorem internalStep_header {s : State} {i : Instr} (h : internalStep s = some i) : i.header = none := by
  obtain ⟨-, -, ⟨rfl, -⟩ | ⟨rfl, -⟩⟩ := internalStep_eq_some h <;> rfl

theorem runTaken_outcome {pick : WorkerPick} {s t : State} (env env' : Env)
    (h : runTaken (workerStep pick { s with env := env }) { s with env := env' } = .next t) : StepOutcome s t := by
  cases hw : workerStep pick { s with env := env } with
  | none =>
    rw [hw] at h
    injection h with h
    exact h ▸ .waited env'
  | some taken =>
    obtain ⟨i, u⟩ := taken
    rw [hw] at h
    rcases workerStep_eq_some _ _ _ _ hw with ⟨hi, rfl⟩ | ⟨e, q, hq, rfl, rfl⟩
    · exact .ran i s.evq env (internalStep_header hi) (.inl rfl) h
    · exact .ran _ q env (instrOfEvent_header _ _) (.inr ⟨e, hq⟩) h

theorem step_outcome {s t : State} (h : step s = .next t) : StepOutcome s t := by
  have hcfg := configInRange_of_step_next h
  cases hs : s.env.schedule with
  | nil =>
    rw [step_unscheduled hcfg hs, unscheduledStep] at h
    split at h
    · exact runTaken_outcome (drawnPick s).env s.env h
    · exact runTaken_outcome s.env s.env h
  | cons turn rest =>
    cases turn with
    | worker pick =>
      simp only [step, hcfg, hs, if_true] at h
      exact runTaken_outcome (s.setSchedule rest).env (s.setSchedule rest).env h
    | rxFill bytes =>
      rw [step_rxFill hcfg hs] at h
      injection h with h
      exact h ▸ .filled bytes rest
    | txDrain =>
      rw [step_txDrain hcfg hs] at h
      injection h with h
      exact h ▸ .drained rest
    | post e =>
      rw [step_post hcfg hs] at h
      injection h with h
      exact h ▸ .posted e rest

/-! ### The event queue -/

/-- No instruction touches the event queue: taking the head event is the worker's (R40, R301). -/
theorem exec_evq {i : Instr} {s t : State} (he : exec i s = .next t) : t.evq = s.evq := by
  cases exec_effect he with
  | command h _ hf _ => exact hf.evq
  | received _ hrx =>
    cases hrx with
    | command b j env _ _ _ _ _ hf he =>
      obtain ⟨h, -, hframe⟩ := command_frame_of_format hf he
      exact hframe.evq
    | _ => rfl
  | dataStep hd => cases hd <;> rfl
  | haltCleared ep trace _ _ => exact setHalt_evq s ep false
  | _ => rfl

/-- Settles O15: the worker takes the head event or none, the environment appends one or none, and no instruction
touches the queue. -/
theorem eventsLeaveTheQueueInOrder : Obligations.EventsLeaveTheQueueInOrder := by
  intro s t h
  have env_turn : ∀ {rest}, BlockKept (s.setSchedule rest) t →
      t.evq = s.evq ∨ (∃ e, s.evq = e :: t.evq) ∨ (∃ e, t.evq = s.evq ++ [e]) := fun hkept =>
    hkept.evq.imp_right .inr
  cases step_outcome h with
  | waited env => exact .inl rfl
  | ran i evq env _ hq he =>
    have hevq : t.evq = evq := exec_evq he
    rw [hevq]
    exact hq.imp_right .inl
  | filled bytes rest => exact env_turn (rxFill_blockKept bytes _)
  | drained rest => exact env_turn (txDrain_blockKept _)
  | posted e rest => exact env_turn (postEvent_blockKept e _)

/-! ### The LUN records under the invariant -/

/-- A store in canonical form that lists only addresses it has (R42, R60). -/
def StoreSound (u : Lun) : Prop := u.store.wf ∧ ∀ x ∈ u.store, x.1 < u.capacity

/-- The part of the invariant about the configuration and the LUN records. -/
structure MediumOk (c : Config) (luns : List Lun) : Prop where
  config : configInRange c = true
  geometry : luns.map Lun.geometry = c.luns.map fun l => (l.blockSize, l.blockCount)
  stores : ∀ u ∈ luns, StoreSound u

theorem Inv.medium {s : State} (h : Inv s) : MediumOk s.cfg s.luns := ⟨h.config, h.geometry, h.stores⟩

/-- Changing one record keeps what the change keeps, of every record. -/
theorem map_modify_of_kept {β : Type} (luns : List Lun) (l : Nat) (f : Lun → Lun) (g : Lun → β)
    (hf : ∀ u, g (f u) = g u) : (luns.modify l f).map g = luns.map g := by
  apply List.ext_getElem?
  intro k
  rw [List.getElem?_map, List.getElem?_map, List.getElem?_modify]
  cases luns[k]? with
  | none => rfl
  | some u => by_cases hl : l = k <;> simp [hl, hf]

theorem mem_modify {luns : List Lun} {l : Nat} {f : Lun → Lun} {v : Lun} (h : v ∈ luns.modify l f) :
    v ∈ luns ∨ ∃ u ∈ luns, v = f u := by
  obtain ⟨k, hk⟩ := List.getElem?_of_mem h
  rw [List.getElem?_modify] at hk
  obtain ⟨u, hu, rfl⟩ := Option.map_eq_some_iff.mp hk
  have hmem := List.mem_of_getElem? hu
  by_cases hl : l = k
  · exact .inr ⟨u, hmem, by simp [hl]⟩
  · exact .inl (by simpa [hl] using hmem)

theorem MediumOk.modify {c : Config} {luns : List Lun} (h : MediumOk c luns) (l : Nat) {f : Lun → Lun}
    (hgeo : ∀ u, (f u).geometry = u.geometry) (hstore : ∀ u, StoreSound u → StoreSound (f u)) :
    MediumOk c (luns.modify l f) where
  config := h.config
  geometry := (map_modify_of_kept luns l f _ hgeo).trans h.geometry
  stores := by
    intro v hv
    rcases mem_modify hv with hv | ⟨u, hu, rfl⟩
    · exact h.stores v hv
    · exact hstore u (h.stores u hu)

theorem MediumOk.startAll {c : Config} {luns : List Lun} (h : MediumOk c luns) :
    MediumOk c (luns.map fun u => { u with stopped := false }) where
  config := h.config
  geometry := by
    rw [List.map_map]
    exact h.geometry
  stores := by
    intro v hv
    obtain ⟨u, hu, rfl⟩ := List.mem_map.mp hv
    exact h.stores u hu

/-- Writing inside the capacity keeps a store sound (R61, R68). -/
theorem StoreSound.writeRange {u : Lun} (h : StoreSound u) {pos : Nat} {b : Buffer}
    (hin : pos + b.length ≤ u.capacity) : StoreSound { u with store := u.store.writeRange pos b } := by
  obtain ⟨hwf, hbound⟩ := h
  refine ⟨Memory.writeRange_wf _ _ _ hwf, fun x hx => ?_⟩
  rcases Memory.mem_writeRange _ _ _ _ hx with ⟨-, hlt⟩ | hx
  · exact Nat.lt_of_lt_of_le hlt hin
  · exact hbound x hx

theorem selectedCapacity_eq (s : State) :
    selectedCapacity s =
      (((s.luns.map Lun.geometry)[s.ctx.lunSel.toNat]?).map fun g => g.1 * g.2).getD 0 := by
  unfold selectedCapacity
  cases hu : s.luns[s.ctx.lunSel.toNat]? <;> simp [hu, Lun.capacity, Lun.geometry]

/-- Two states agree on their data phase when they agree on the context and the geometry. -/
theorem dataPhaseOk_congr {s t : State} (hctx : t.ctx = s.ctx)
    (hgeo : t.luns.map Lun.geometry = s.luns.map Lun.geometry) (h : dataPhaseOk s) : dataPhaseOk t := by
  have hcap : selectedCapacity t = selectedCapacity s := by
    rw [selectedCapacity_eq, selectedCapacity_eq, hctx, hgeo]
  unfold dataPhaseOk at h ⊢
  rw [hctx, hcap]
  exact h

theorem dataPhaseOk_of_none {s : State} (h : s.ctx.xfer = .none) : dataPhaseOk s := by
  unfold dataPhaseOk
  rw [h]
  trivial

/-! ### Power-on (R45) -/

theorem bufCap_ge_31 {c : Config} (h : configInRange c = true) : 31 ≤ c.bufCap := by
  simp only [configInRange, Bool.and_eq_true, decide_eq_true_eq] at h
  omega

theorem powerOn_mediumOk {c : Config} (h : configInRange c = true) : MediumOk c (State.powerOn c).luns where
  config := h
  geometry := List.map_map
  stores := by
    intro u hu
    obtain ⟨l, -, rfl⟩ := List.mem_map.mp hu
    exact ⟨Memory.launch_wf _ _, Memory.launch_bounded _ _⟩

/-- At launch a store reads at each of its addresses as the first launch cell for it (R42, log 6). -/
theorem powerOn_storeByte {c : Config} {l : Nat} {p : LunConfig} (hp : c.luns[l]? = some p) {a : Nat} {b : Byte}
    (ha : a < p.blockSize * p.blockCount) (hfind : p.launch.find? (fun x => x.1 = a) = some (a, b)) :
    (State.powerOn c).storeByte l a = some b := by
  simp [State.storeByte, State.powerOn, Lun.powerOn, hp, Memory.byte_launch _ _ _ ha, hfind]

/-- Settles O47: each register by its power-on value, each store through its launch contents. -/
theorem powerOnValues : Obligations.PowerOnValues := by
  refine ⟨rfl, ?_⟩
  rintro c s rfl
  refine ⟨rfl, rfl, rfl, rfl, rfl, rfl, rfl, rfl, rfl, rfl, rfl, rfl, rfl, List.length_map _, ?_⟩
  intro l u p hu hp
  have hluns : (State.powerOn c).luns[l]? = some (Lun.powerOn p) := by simp [State.powerOn, hp]
  rw [hluns] at hu
  injection hu with hu
  subst hu
  exact ⟨rfl, rfl, rfl, rfl, rfl, fun a b ha hfind => powerOn_storeByte hp ha hfind⟩

/-! ### The context under the invariant -/

/-- The context of a command in flight (R22, R24, R32, R44). -/
structure CommandCtx (c : Ctx) : Prop where
  st : c.st = .dispatched
  cbwLength : c.cbw.length = 31
  busy : c.busy = true
  phaseError : c.phaseError = false
  residue_le : c.residue.toNat ≤ c.xferLen.toNat
  status : c.status ≠ .phaseError
  wedged : c.wedged = true → c.xfer = .none

/-- The context outside `DISPATCHED` (R24, R44, R285). -/
structure IdleCtx (c : Ctx) : Prop where
  st : c.st ≠ .dispatched
  cbwLength : c.cbw.length = 31
  busy : c.busy = false
  xfer : c.xfer = .none
  residue : c.residue = 0
  phaseError : c.phaseError = true → c.status = .phaseError ∧ (c.st = .cbwWait ∨ c.st = .status)
  wedged : c.wedged = true → c.st = .cbwWait ∧ c.phaseError = true

/-- Buffers hold 1 to `BUF_CAP` bytes (R43). -/
def BuffersFit (cap : Nat) (q : List Buffer) : Prop := ∀ b ∈ q, 1 ≤ b.length ∧ b.length ≤ cap

theorem BuffersFit.nil (cap : Nat) : BuffersFit cap [] := fun _ h => absurd h List.not_mem_nil

theorem BuffersFit.append {cap : Nat} {q : List Buffer} {b : Buffer} (h : BuffersFit cap q)
    (hb : 1 ≤ b.length ∧ b.length ≤ cap) : BuffersFit cap (q ++ [b]) := by
  intro x hx
  rcases List.mem_append.mp hx with hx | hx
  · exact h x hx
  · exact List.mem_singleton.mp hx ▸ hb

section inv

variable {s : State}

theorem Inv.commandCtx (h : Inv s) (hst : s.ctx.st = .dispatched) : CommandCtx s.ctx where
  st := hst
  cbwLength := h.cbwLength
  busy := h.busy_iff.mpr hst
  phaseError := by
    by_contra hpe
    obtain ⟨-, hw | hw⟩ := h.phaseError (by simpa using hpe) <;> rw [hst] at hw <;> cases hw
  residue_le := h.residue_le (h.busy_iff.mpr hst)
  status := h.commandStatus hst
  wedged := fun hw => by
    rcases h.wedged hw with ⟨hc, -⟩ | ⟨-, hx⟩
    · rw [hst] at hc
      cases hc
    · exact hx

theorem Inv.idleCtx (h : Inv s) (hst : s.ctx.st ≠ .dispatched) : IdleCtx s.ctx where
  st := hst
  cbwLength := h.cbwLength
  busy := by simpa using fun hb => hst (h.busy_iff.mp hb)
  xfer := by_contra fun hx => hst (h.xfer_idle hx).1
  residue := by_contra fun hr => hst (h.residue_idle hr)
  phaseError := h.phaseError
  wedged := fun hw => (h.wedged hw).resolve_right fun hd => hst hd.1

/-- The invariant of a state with a command in flight and no buffer waiting in `RX.q`. -/
theorem CommandCtx.inv (h : CommandCtx s.ctx) (hm : MediumOk s.cfg s.luns) (hd : dataPhaseOk s) (hrx : s.rxq = [])
    (htx : BuffersFit s.cfg.bufCap s.txq) : Inv s where
  config := hm.config
  geometry := hm.geometry
  stores := hm.stores
  cbwLength := h.cbwLength
  busy_iff := iff_of_true h.busy h.st
  residue_idle := fun _ => h.st
  xfer_idle := fun _ => ⟨h.st, h.busy⟩
  residue_le := fun _ => h.residue_le
  dataPhase := hd
  phaseError := by simp [h.phaseError]
  commandStatus := fun _ => h.status
  phaseErrorHalts := by simp [h.phaseError]
  wedged := fun hw => .inr ⟨h.st, h.wedged hw⟩
  rx_one := by simp [hrx]
  rx_wanted := fun hne => absurd hrx hne
  rx_sizes := hrx ▸ BuffersFit.nil _
  tx_sizes := htx

/-- The invariant of a state outside `DISPATCHED` with no buffer waiting in `RX.q`. -/
theorem IdleCtx.inv (h : IdleCtx s.ctx)
    (hhalts : s.ctx.phaseError = true → s.ctx.st = .cbwWait → s.ctx.wedged = false →
      s.haltRx = true ∧ s.haltTx = true)
    (hm : MediumOk s.cfg s.luns) (hrx : s.rxq = []) (htx : BuffersFit s.cfg.bufCap s.txq) : Inv s where
  config := hm.config
  geometry := hm.geometry
  stores := hm.stores
  cbwLength := h.cbwLength
  busy_iff := iff_of_false (by simp [h.busy]) h.st
  residue_idle := fun hr => absurd h.residue hr
  xfer_idle := fun hx => absurd h.xfer hx
  residue_le := by simp [h.busy]
  dataPhase := dataPhaseOk_of_none h.xfer
  phaseError := h.phaseError
  commandStatus := fun hst => absurd hst h.st
  phaseErrorHalts := hhalts
  wedged := fun hw => .inl (h.wedged hw)
  rx_one := by simp [hrx]
  rx_wanted := fun hne => absurd hrx hne
  rx_sizes := hrx ▸ BuffersFit.nil _
  tx_sizes := htx

/-- Settles O48: an idle context with empty queues over the launch contents. -/
theorem powerOnSatisfiesTheInvariant : Obligations.PowerOnSatisfiesTheInvariant := by
  have hall : ∀ c : Config, configInRange c = true → Inv (State.powerOn c) := fun c hc =>
    IdleCtx.inv (s := State.powerOn c)
      ⟨by simp [State.powerOn, Ctx.powerOn], rfl, rfl, rfl, rfl, by simp [State.powerOn, Ctx.powerOn],
        by simp [State.powerOn, Ctx.powerOn]⟩
      (by simp [State.powerOn, Ctx.powerOn]) (powerOn_mediumOk hc) rfl (BuffersFit.nil _)
  exact ⟨hall Config.default (by decide), hall⟩

/-! ### Updates that keep the invariant -/

/-- The invariant reads neither the events, the environment, the outputs, nor what the host received. -/
theorem Inv.withOutputs (h : Inv s) (evq : List Event) (hostRx : List Buffer) (trace : List Action) (env : Env) :
    Inv { s with evq := evq, hostRx := hostRx, trace := trace, env := env } :=
  ⟨h.config, h.geometry, h.stores, h.cbwLength, h.busy_iff, h.residue_idle, h.xfer_idle, h.residue_le,
    dataPhaseOk_congr rfl rfl h.dataPhase, h.phaseError, h.commandStatus, h.phaseErrorHalts, h.wedged, h.rx_one,
    h.rx_wanted, h.rx_sizes, h.tx_sizes⟩

theorem Inv.withRxq (h : Inv s) (rxq : List Buffer) (hone : rxq.length ≤ 1)
    (hwanted : rxq ≠ [] → waitsForRx s) (hfit : BuffersFit s.cfg.bufCap rxq) : Inv { s with rxq := rxq } :=
  ⟨h.config, h.geometry, h.stores, h.cbwLength, h.busy_iff, h.residue_idle, h.xfer_idle, h.residue_le,
    dataPhaseOk_congr rfl rfl h.dataPhase, h.phaseError, h.commandStatus, h.phaseErrorHalts, h.wedged, hone,
    hwanted, hfit, h.tx_sizes⟩

theorem Inv.withTxq (h : Inv s) (txq : List Buffer) (hfit : BuffersFit s.cfg.bufCap txq) :
    Inv { s with txq := txq } :=
  ⟨h.config, h.geometry, h.stores, h.cbwLength, h.busy_iff, h.residue_idle, h.xfer_idle, h.residue_le,
    dataPhaseOk_congr rfl rfl h.dataPhase, h.phaseError, h.commandStatus, h.phaseErrorHalts, h.wedged, h.rx_one,
    h.rx_wanted, h.rx_sizes, hfit⟩

theorem Inv.withLuns (h : Inv s) (luns : List Lun) (hm : MediumOk s.cfg luns) : Inv { s with luns := luns } :=
  ⟨hm.config, hm.geometry, hm.stores, h.cbwLength, h.busy_iff, h.residue_idle, h.xfer_idle, h.residue_le,
    dataPhaseOk_congr (s := s) rfl (hm.geometry.trans h.geometry.symm) h.dataPhase, h.phaseError, h.commandStatus,
    h.phaseErrorHalts, h.wedged, h.rx_one, h.rx_wanted, h.rx_sizes, h.tx_sizes⟩

/-- Outside a phase error the halts are free (R33). -/
theorem Inv.withHalts (h : Inv s) (hpe : s.ctx.phaseError = false) (haltRx haltTx : Bool) :
    Inv { s with haltRx := haltRx, haltTx := haltTx } :=
  ⟨h.config, h.geometry, h.stores, h.cbwLength, h.busy_iff, h.residue_idle, h.xfer_idle, h.residue_le,
    dataPhaseOk_congr rfl rfl h.dataPhase, h.phaseError, h.commandStatus, by simp [hpe], h.wedged, h.rx_one,
    h.rx_wanted, h.rx_sizes, h.tx_sizes⟩

theorem Inv.setHalt_false (h : Inv s) (hpe : s.ctx.phaseError = false) (ep : Endpoint) :
    Inv (s.setHalt ep false) := by
  cases ep
  · exact h.withHalts hpe false s.haltTx
  · exact h.withHalts hpe s.haltRx false

theorem Inv.rxq_tail (h : Inv s) : s.rxq.tail = [] := by
  have hone := h.rx_one
  cases hq : s.rxq with
  | nil => rfl
  | cons b q => simpa [hq] using hone

theorem Inv.rxq_nil (h : Inv s) (hno : ¬ waitsForRx s) : s.rxq = [] := by_contra fun hne => hno (h.rx_wanted hne)

/-- Taking the announced buffer empties `RX.q` (R131, R140). -/
theorem Inv.takeRx (h : Inv s) : Inv { s with rxq := s.rxq.tail } := by
  rw [h.rxq_tail]
  exact h.withRxq [] (by simp) (by simp) (BuffersFit.nil _)

/-- A failed data phase (R183). -/
theorem Inv.xferFail (h : Inv s) (hst : s.ctx.st = .dispatched) (hrx : s.rxq = []) : Inv (xferFail s) := by
  have hc := h.commandCtx hst
  exact CommandCtx.inv (s := Machine.xferFail s)
    ⟨hst, h.cbwLength, hc.busy, hc.phaseError, hc.residue_le, by simp [Machine.xferFail], fun _ => rfl⟩
    (h.medium.modify _ (fun _ => rfl) fun _ hu => hu) (dataPhaseOk_of_none rfl) hrx h.tx_sizes

theorem toNat_sub_ofNat {r : Word} {n : Nat} (h : n ≤ r.toNat) :
    (r - BitVec.ofNat 32 n).toNat = r.toNat - n := by
  have := r.isLt
  rw [BitVec.toNat_sub, BitVec.toNat_ofNat]
  omega

/-- Moving at most what remains keeps the data phase consistent, or ends it (R181, R253). -/
theorem dataPhaseOk_advanceXfer (h : dataPhaseOk s) {n : Nat} (hn : n ≤ s.ctx.residue.toNat) :
    dataPhaseOk (advanceXfer n s) := by
  have hcap : selectedCapacity (advanceXfer n s) = selectedCapacity s := rfl
  have hres' := toNat_sub_ofNat hn
  cases hx : s.ctx.xfer
  case none => exact dataPhaseOk_of_none (by simp [hx, Xfer.advance])
  all_goals
    rename_i pos remaining
    by_cases hz : remaining - n = 0
    · exact dataPhaseOk_of_none (by simp [hx, Xfer.advance, hz])
    · simp only [dataPhaseOk, advanceXfer_ctx, hx, Xfer.advance, hz, if_false] at h ⊢
      obtain ⟨-, hres, hdir, hend⟩ := h
      exact ⟨by omega, by omega, hdir, by omega⟩

theorem Inv.advanceXfer (h : Inv s) (hst : s.ctx.st = .dispatched) (hw : s.ctx.wedged = false) (hrx : s.rxq = [])
    {n : Nat} (hn : n ≤ s.ctx.residue.toNat) : Inv (advanceXfer n s) := by
  have hc := h.commandCtx hst
  refine CommandCtx.inv (s := Machine.advanceXfer n s)
    ⟨hst, h.cbwLength, hc.busy, hc.phaseError, ?_, hc.status, by simp [hw]⟩
    h.medium (dataPhaseOk_advanceXfer h.dataPhase hn) hrx h.tx_sizes
  show (s.ctx.residue - BitVec.ofNat 32 n).toNat ≤ s.ctx.xferLen.toNat
  rw [toNat_sub_ofNat hn]
  exact Nat.le_trans (Nat.sub_le _ _) hc.residue_le

theorem Inv.not_wedged (h : Inv s) (hst : s.ctx.st = .dispatched) (hx : s.ctx.xfer ≠ .none) :
    s.ctx.wedged = false := by
  simpa using fun hw => hx ((h.commandCtx hst).wedged hw)

/-! ### The data steps keep the invariant (R181, R253) -/

/-- A chunk that fits its buffer and what remains, sent or failed. -/
theorem sendChunk_keeps_inv (h : Inv s) (hst : s.ctx.st = .dispatched) (hx : s.ctx.xfer ≠ .none)
    (hwr : s.ctx.xfer.isWrite = false) {n : Nat} {chunk : Option (List Byte)} (hn : n ≤ s.ctx.residue.toNat)
    (hfit : ∀ bytes, chunk = some bytes → 1 ≤ bytes.length ∧ bytes.length ≤ s.cfg.bufCap) {t : State}
    (hs : sendChunk n chunk s = .next t) : Inv t := by
  have hrx : s.rxq = [] := h.rxq_nil fun ⟨_, hwait⟩ => by simp [hst, hwr] at hwait
  have hw := h.not_wedged hst hx
  rcases sendChunk_next n chunk s t hs with ⟨env, rfl⟩ | ⟨bytes, env, hb, rfl⟩
  · exact (h.withOutputs s.evq s.hostRx s.trace env).xferFail hst hrx
  · have htx := (h.withTxq _ (BuffersFit.append h.tx_sizes (hfit bytes hb))).withOutputs s.evq s.hostRx
      (s.trace ++ [.pipeCommit bytes]) env
    exact htx.advanceXfer hst hw hrx hn

theorem dataStepTx_keeps_inv (h : Inv s) {t : State} (he : exec .dataStepTx s = .next t) : Inv t := by
  have he : execDataStepTx s = .next t := he
  have hcap := bufCap_ge_31 h.config
  have hdata := h.dataPhase
  unfold execDataStepTx at he
  split at he
  next hst =>
    cases hx : s.ctx.xfer with
    | none =>
      simp only [hx] at he
      injection he with he
      exact he ▸ h
    | wr pos remaining =>
      simp only [hx] at he
      injection he with he
      exact he ▸ h
    | resp bytes pos remaining =>
      simp only [hx] at he
      simp only [dataPhaseOk, hx] at hdata
      obtain ⟨hpos, hres, -, hlen⟩ := hdata
      refine sendChunk_keeps_inv h hst (by simp [hx]) (by simp [hx, Xfer.isWrite]) (by omega) ?_ he
      rintro chunk ⟨⟩
      rw [List.length_take, List.length_drop]
      omega
    | rd pos remaining =>
      simp only [hx] at he
      simp only [dataPhaseOk, hx] at hdata
      obtain ⟨hpos, hres, -, -⟩ := hdata
      refine sendChunk_keeps_inv h hst (by simp [hx]) (by simp [hx, Xfer.isWrite]) (by omega) ?_ he
      intro chunk hchunk
      obtain ⟨u, -, -, rfl⟩ := memRead_eq_some _ _ _ _ _ hchunk
      rw [Memory.readRange_length]
      omega
  next =>
    injection he with he
    exact he ▸ h

theorem MediumOk.writePayload {c : Config} {luns : List Lun} (h : MediumOk c luns) {l : Nat} {u : Lun}
    (hu : luns[l]? = some u) {pos : Nat} {b : Buffer} (hin : pos + b.length ≤ u.capacity) :
    MediumOk c (luns.modify l fun u => { u with store := u.store.writeRange pos b }) where
  config := h.config
  geometry := (map_modify_of_kept luns l _ _ fun _ => by rfl).trans h.geometry
  stores := by
    rw [modify_of_some luns l _ u hu]
    intro v hv
    rcases List.mem_or_eq_of_mem_set hv with hv | rfl
    · exact h.stores v hv
    · exact (h.stores u (List.mem_of_getElem? hu)).writeRange hin

theorem receivePayload_keeps_inv (h : Inv s) (hst : s.ctx.st = .dispatched) {pos remaining : Nat}
    (hx : s.ctx.xfer = .wr pos remaining) {t : State} (he : receivePayload pos remaining s = .next t) :
    Inv t := by
  have hw := h.not_wedged hst (by simp [hx])
  have hres : s.ctx.residue.toNat = remaining := by
    have hdata := h.dataPhase
    simp only [dataPhaseOk, hx] at hdata
    exact hdata.2.1
  rcases receivePayload_next _ _ _ _ he with ⟨env, rfl⟩ | ⟨b, u, env, -, hb, hu, hin, rfl⟩
  · exact (h.takeRx.withOutputs s.evq s.hostRx s.trace env).xferFail hst h.rxq_tail
  · have hstored := (h.takeRx.withLuns _ (h.medium.writePayload hu hin)).withOutputs s.evq s.hostRx
      (s.trace ++ [.memWrite s.ctx.lunSel.toNat pos b] ++ [.pipeDiscard]) env
    exact hstored.advanceXfer hst hw h.rxq_tail (hres ▸ hb)

/-! ### Reception keeps the invariant (R150 to R154) -/

/-- What an accepted command leaves: a status of its own, a consistent data phase, sound LUN records. -/
theorem CommandOutcome.sound {h : CbwHeader} {i : Instr} {t : State} (ho : CommandOutcome h s i t)
    (hm : MediumOk s.cfg s.luns) : t.ctx.status ≠ .phaseError ∧ dataPhaseOk t ∧ MediumOk s.cfg t.luns := by
  cases ho with
  | failed x =>
    exact ⟨by simp, dataPhaseOk_of_none rfl, hm.modify _ (fun _ => rfl) fun _ hu => hu⟩
  | passed x hx => exact ⟨by simp, hx, hm⟩
  | unitSwitched loej start =>
    exact ⟨by simp, dataPhaseOk_of_none rfl, hm.modify _ (fun _ => rfl) fun _ hu => hu⟩
  | senseReported x hx =>
    have hgeo : (recordSense h.lun.toNat .ok ((loadCommand h s).setXfer x)).luns.map Lun.geometry =
        ((loadCommand h s).setXfer x).luns.map Lun.geometry :=
      map_modify_of_kept _ _ _ _ fun _ => by rfl
    exact ⟨by simp, dataPhaseOk_congr (s := (loadCommand h s).setXfer x) rfl hgeo hx,
      hm.modify _ (fun _ => rfl) fun _ hu => hu⟩

/-- A command dispatched on an accepted state leaves the invariant (R152, R170). -/
theorem command_establishes_inv {i : Instr} {t : State} (hf : i.format = .cbw) (he : exec i s = .next t)
    (hst : s.ctx.st = .dispatched) (hcbw : s.ctx.cbw.length = 31) (hbusy : s.ctx.busy = true)
    (hpe : s.ctx.phaseError = false) (hw : s.ctx.wedged = false) (hm : MediumOk s.cfg s.luns) (hrx : s.rxq = [])
    (htx : BuffersFit s.cfg.bufCap s.txq) : Inv t := by
  obtain ⟨h, hi, hframe⟩ := command_frame_of_format hf he
  obtain ⟨hstatus, hdata, hm'⟩ := (exec_command_outcome hi he).sound hm
  have hctx : CommandCtx t.ctx := by
    rw [hframe.ctx]
    exact ⟨hst, hcbw, hbusy, hpe, Nat.le_refl _, hstatus, by simp [State.withCommand, hw]⟩
  have hcfg : t.cfg = s.cfg := hframe.cfg
  have htxq : t.txq = s.txq := hframe.txq
  exact hctx.inv (hcfg ▸ hm') hdata (hframe.rxq.trans hrx) (by rw [hcfg, htxq]; exact htx)

/-- A decoded CBW has its 31 bytes (R26, R93). -/
theorem length_of_decodeCbw {c : Config} {b : List Byte} {i : Instr} (h : decodeCbw c b = .ok i) :
    b.length = 31 := by
  unfold decodeCbw at h
  split at h
  next hv => simp_all [cbwValid]
  next => cases h

/-- An invalid CBW enters the phase error, its CSW queued or the block stuck (R154). -/
theorem raisePhaseError_keeps_inv (h : Inv s) (hst : s.ctx.st = .cbwWait) (hw : s.ctx.wedged = false)
    (hrx : s.rxq = []) : Inv (raisePhaseError s) := by
  have hidle := h.idleCtx (by simp [hst])
  have hcap := bufCap_ge_31 h.config
  rcases raisePhaseError_cases s with ⟨csw, env, rfl, e⟩ | ⟨env, e⟩ <;> rw [e]
  · refine IdleCtx.inv ⟨by simp, h.cbwLength, hidle.busy, hidle.xfer, hidle.residue, fun _ => ⟨rfl, .inr rfl⟩,
        by simp [phaseErrorCtx, hw]⟩ (by simp) h.medium hrx (BuffersFit.append h.tx_sizes ?_)
    rw [cswBytes_length]
    dsimp only
    omega
  · exact IdleCtx.inv
      ⟨hidle.st, h.cbwLength, hidle.busy, hidle.xfer, hidle.residue, fun _ => ⟨rfl, .inl hst⟩, fun _ => ⟨hst, rfl⟩⟩
      (by simp) h.medium hrx h.tx_sizes

theorem receiveCbw_keeps_inv (h : Inv s) (hst : s.ctx.st = .cbwWait) (hpe : s.ctx.phaseError = false) {t : State}
    (he : receiveCbw s = .next t) : Inv t := by
  have hw : s.ctx.wedged = false := by
    simpa [hpe] using fun hw => ((h.idleCtx (by simp [hst])).wedged hw).2
  unfold receiveCbw at he
  rcases pipeAcquireRx_cases s with ⟨b, -, -, ha⟩ | ⟨-, ha⟩ <;> rw [ha] at he <;> dsimp only at he
  · have htaken := h.takeRx.withOutputs s.evq s.hostRx (s.trace ++ [.pipeDiscard]) (drawnAcquire s).env
    rcases parseCbw_next _ _ _ he with rfl | ⟨i, hd, hf, hx⟩
    · exact raisePhaseError_keeps_inv htaken hst hw h.rxq_tail
    · exact command_establishes_inv hf hx rfl (length_of_decodeCbw hd) rfl hpe hw h.medium h.rxq_tail h.tx_sizes
  · injection he with he
    subst he
    exact h.takeRx.withOutputs s.evq s.hostRx s.trace (drawnAcquire s).env

/-- The three ways EV_RX_READY goes: stale, a CBW in `CBW_WAIT`, payload of a WRITE(10) (R150). -/
theorem exec_evRxReady_cases {t : State} (he : exec .evRxReady s = .next t) :
    t = s ∨ (s.ctx.st = .cbwWait ∧ s.ctx.phaseError = false ∧ receiveCbw s = .next t) ∨
      (∃ pos remaining, s.ctx.st = .dispatched ∧ s.ctx.xfer = .wr pos remaining ∧
        receivePayload pos remaining s = .next t) := by
  have he : execEvRxReady s = .next t := he
  unfold execEvRxReady at he
  split at he
  next => exact .inl (by injection he with he; exact he.symm)
  split at he
  next hc =>
    simp only [Bool.and_eq_true, decide_eq_true_eq, Bool.not_eq_true'] at hc
    exact .inr (.inl ⟨hc.1, hc.2, he⟩)
  split at he
  next hst =>
    split at he
    next hx => exact .inr (.inr ⟨_, _, hst, hx, he⟩)
    all_goals exact .inl (by injection he with he; exact he.symm)
  next => exact .inl (by injection he with he; exact he.symm)

theorem evRxReady_keeps_inv (h : Inv s) {t : State} (he : exec .evRxReady s = .next t) : Inv t := by
  rcases exec_evRxReady_cases he with rfl | ⟨hst, hpe, he⟩ | ⟨pos, remaining, hst, hx, he⟩
  · exact h
  · exact receiveCbw_keeps_inv h hst hpe he
  · exact receivePayload_keeps_inv h hst hx he

/-! ### Every step keeps the invariant -/

/-- Every instruction that is no SCSI command keeps the invariant; a SCSI command runs inside its reception. -/
theorem exec_keeps_inv (h : Inv s) {i : Instr} {t : State} (hi : i.header = none) (he : exec i s = .next t) :
    Inv t := by
  cases exec_effect he with
  | command hd hi' => rw [hi] at hi'; cases hi'
  | received hi' _ =>
    rcases hi' with rfl | ⟨rfl, hst⟩
    · exact evRxReady_keeps_inv h he
    · exact evRxReady_keeps_inv h (exec_evRxReadyData_dispatched hst ▸ he)
  | dataStep _ => exact dataStepTx_keeps_inv h he
  | cswQueued haltRx haltTx csw trace env hst hx hw hlen _ _ =>
    have hc := h.commandCtx hst
    have hcap := bufCap_ge_31 h.config
    have hrx : s.rxq = [] := h.rxq_nil fun ⟨_, hwait⟩ => by simp [hst, hx, Xfer.isWrite] at hwait
    exact IdleCtx.inv ⟨by simp, h.cbwLength, rfl, hx, rfl, by simp [hc.phaseError], by simp [hw]⟩
      (by simp) h.medium hrx (BuffersFit.append h.tx_sizes ⟨by omega, by dsimp only; omega⟩)
  | cswStuck haltRx trace env hst hx _ =>
    have hc := h.commandCtx hst
    have hrx : s.rxq = [] := h.rxq_nil fun ⟨_, hwait⟩ => by simp [hst, hx, Xfer.isWrite] at hwait
    exact CommandCtx.inv ⟨hst, h.cbwLength, hc.busy, hc.phaseError, hc.residue_le, hc.status, fun _ => hx⟩
      h.medium (dataPhaseOk_of_none hx) hrx h.tx_sizes
  | answered trace _ => exact h.withOutputs s.evq s.hostRx trace s.env
  | haltCleared ep trace _ hpe =>
    have hinv := h.setHalt_false hpe ep
    exact hinv.withOutputs (s.setHalt ep false).evq (s.setHalt ep false).hostRx trace (s.setHalt ep false).env
  | configured trace =>
    exact IdleCtx.inv
      ⟨by simp, h.cbwLength, rfl, rfl, rfl, fun hpe => ⟨(h.phaseError hpe).1, .inl rfl⟩, by simp [cancelledCtx]⟩
      (fun hpe _ _ => by have hpe : s.ctx.phaseError = true := hpe; simp [hpe])
      h.medium.startAll rfl (BuffersFit.nil _)
  | busReset trace _ =>
    exact IdleCtx.inv ⟨by simp, h.cbwLength, rfl, rfl, rfl, by simp, by simp [cancelledCtx]⟩ (by simp)
      h.medium rfl (BuffersFit.nil _)
  | botReset trace _ =>
    exact IdleCtx.inv ⟨by simp, h.cbwLength, rfl, rfl, rfl, by simp, by simp [cancelledCtx]⟩ (by simp)
      h.medium rfl (BuffersFit.nil _)
  | drained trace hst hw =>
    have hidle := h.idleCtx (by simp [hst])
    have hrx : s.rxq = [] := h.rxq_nil fun ⟨_, hwait⟩ => by simp [hst] at hwait
    exact IdleCtx.inv
      ⟨by simp, h.cbwLength, hidle.busy, hidle.xfer, hidle.residue,
        fun hpe => ⟨(h.phaseError hpe).1, .inl rfl⟩, by simp [hw]⟩
      (fun hpe _ _ => by have hpe : s.ctx.phaseError = true := hpe; simp [hpe]) h.medium hrx h.tx_sizes
  | media l present => exact h.withLuns _ (h.medium.modify l (fun _ => rfl) fun _ hu => hu)

/-- A buffer enters `RX.q` only while it is armed, so it is the only one and a wanted one (R140, R141). -/
theorem rxFill_keeps_inv (h : Inv s) (bytes : Buffer) : Inv (rxFill bytes s) := by
  unfold rxFill
  split
  next hen =>
    simp only [State.armed, Bool.and_eq_true, Bool.or_eq_true, Bool.not_eq_true', decide_eq_true_eq,
      List.isEmpty_iff] at hen
    obtain ⟨⟨⟨⟨⟨hempty, hw⟩, hwait⟩, -⟩, hpos⟩, hcap⟩ := hen
    refine (h.withRxq (s.rxq ++ [bytes]) (by simp [hempty]) (fun _ => ⟨hw, hwait⟩)
      (BuffersFit.append h.rx_sizes ⟨hpos, hcap⟩)).withOutputs (s.evq ++ [.rxReady]) s.hostRx s.trace s.env
  next => exact h

theorem txDrain_keeps_inv (h : Inv s) : Inv (txDrain s) := by
  rcases txDrain_cases s with e | ⟨b, q, hq, -, e⟩ <;> rw [e]
  · exact h
  · have hfit : BuffersFit s.cfg.bufCap q := fun x hx => h.tx_sizes x (hq ▸ List.mem_cons_of_mem b hx)
    exact (h.withTxq q hfit).withOutputs (s.evq ++ [.txDrained]) (s.hostRx ++ [b]) s.trace s.env

theorem postEvent_keeps_inv (h : Inv s) (e : Event) : Inv (postEvent e s) := by
  rcases postEvent_cases e s with he | he <;> rw [he]
  · exact h
  · exact h.withOutputs (s.evq ++ [e]) s.hostRx s.trace s.env


end inv

/-- Settles O49: a worker's step runs an instruction that keeps the invariant, and the environment's turns move
buffers only as the pipes allow. -/
theorem everyStepKeepsTheInvariant : Obligations.EveryStepKeepsTheInvariant := by
  intro s t h hstep
  have hturn : ∀ rest, Inv (s.setSchedule rest) := fun rest =>
    h.withOutputs s.evq s.hostRx s.trace { s.env with schedule := rest }
  cases step_outcome hstep with
  | waited env => exact h.withOutputs s.evq s.hostRx s.trace env
  | ran i evq env hi _ he => exact exec_keeps_inv (h.withOutputs evq s.hostRx s.trace env) hi he
  | filled bytes rest => exact rxFill_keeps_inv (hturn rest) bytes
  | drained rest => exact txDrain_keeps_inv (hturn rest)
  | posted e rest => exact postEvent_keeps_inv (hturn rest) e

end Sys2Proof.Machine
end

section
/-! PROOFS. Scope: the writers of each register. Which instructions change the busy bit, the halts, the phase
error and the LUN records with their stores, and what stands on the trace when they do (R24, R33 to R38, R42). -/

namespace Sys2Proof.Machine

/-! ### What must be announced on the trace (R33, R34) -/

/-- From `s` to `t` the trace only grew, and what it gained announces the changes: a busy change with the
link-power action, a halt set with a stall. -/
def Announced (s t : State) : Prop :=
  ∃ new, t.trace = s.trace ++ new ∧
    (t.ctx.busy ≠ s.ctx.busy → Action.lpmAllow (!t.ctx.busy) ∈ new) ∧
    ∀ ep, s.halted ep = false → t.halted ep = true → Action.stall ep ∈ new

/-- A part that leaves busy and sets no halt has nothing to announce. -/
theorem Announced.of_kept {s t : State} (new : List Action) (htrace : t.trace = s.trace ++ new)
    (hbusy : t.ctx.busy = s.ctx.busy) (hhalt : ∀ ep, t.halted ep = true → s.halted ep = true) : Announced s t :=
  ⟨new, htrace, fun hne => absurd hbusy hne, fun ep hs ht => by simp [hhalt ep ht] at hs⟩

/-- A part that adds nothing to the trace, leaves busy and sets no halt. -/
theorem Announced.silent {s t : State} (htrace : t.trace = s.trace) (hbusy : t.ctx.busy = s.ctx.busy)
    (hhalt : ∀ ep, t.halted ep = true → s.halted ep = true) : Announced s t :=
  .of_kept [] (by rw [htrace, List.append_nil]) hbusy hhalt

theorem Announced.refl (s : State) : Announced s s := .silent rfl rfl fun _ h => h

theorem Announced.trans {s t u : State} (hst : Announced s t) (htu : Announced t u) : Announced s u := by
  obtain ⟨new, htrace, hbusy, hhalt⟩ := hst
  obtain ⟨new', htrace', hbusy', hhalt'⟩ := htu
  refine ⟨new ++ new', by rw [htrace', htrace, List.append_assoc], fun hne => ?_, fun ep hs hu => ?_⟩
  · by_cases hsame : u.ctx.busy = t.ctx.busy
    · exact List.mem_append_left _ (hsame ▸ hbusy (hsame ▸ hne))
    · exact List.mem_append_right _ (hbusy' hsame)
  · cases ht : t.halted ep
    · exact List.mem_append_right _ (hhalt' ep ht hu)
    · exact List.mem_append_left _ (hhalt ep hs ht)

theorem halted_setHalt (s : State) (ep ep' : Endpoint) (b : Bool) :
    (s.setHalt ep b).halted ep' = if ep = ep' then b else s.halted ep' := by
  cases ep <;> cases ep' <;> rfl

theorem Announced.stall (ep : Endpoint) (s : State) : Announced s (stall ep s) := by
  refine ⟨[.stall ep], by simp, fun hne => absurd (by simp) hne, fun ep' hs ht => ?_⟩
  have ht : ((s.emit (.stall ep)).setHalt ep true).halted ep' = true := ht
  rw [halted_setHalt] at ht
  split at ht
  next hep => exact hep ▸ List.mem_singleton.mpr rfl
  next =>
    have hkept : s.halted ep' = true := ht
    simp [hkept] at hs

theorem Announced.setBusy (b : Bool) (s : State) : Announced s (setBusy b s) :=
  ⟨[.lpmAllow (!b)], rfl, fun _ => List.mem_singleton.mpr rfl, fun ep hs ht => by
    have hkept : s.halted ep = true := ht
    simp [hkept] at hs⟩

theorem Announced.clearBusy (s : State) : Announced s (clearBusy s) := by
  unfold Machine.clearBusy
  split
  · exact .setBusy false s
  · exact .refl s

theorem Announced.cancelCommand (s : State) : Announced s (cancelCommand s) :=
  (Announced.clearBusy s).trans (.silent rfl rfl fun _ h => h)

theorem Announced.flushPipes (s : State) : Announced s (flushPipes s) :=
  .of_kept [.pipeReset .rx, .pipeReset .tx] (by simp) rfl fun _ h => h

theorem Announced.stallBoth (s : State) : Announced s (stallBoth s) :=
  (Announced.stall .rx s).trans (.stall .tx _)

theorem Announced.setSt (s : State) (st : TransportState) : Announced s (s.setSt st) :=
  .silent rfl rfl fun _ h => h

theorem Announced.emit (s : State) (a : Action) : Announced s (s.emit a) :=
  .of_kept [a] rfl rfl fun _ h => h

theorem Announced.unstall (ep : Endpoint) (s : State) : Announced s (unstall ep s) := by
  refine .of_kept [.unstall ep] (by simp) (by simp) fun ep' ht => ?_
  have ht : ((s.emit (.unstall ep)).setHalt ep false).halted ep' = true := ht
  rw [halted_setHalt] at ht
  split at ht
  next => cases ht
  next => exact ht

theorem Announced.stallUnfinishedOut (s : State) : Announced s (stallUnfinishedOut s) := by
  unfold Machine.stallUnfinishedOut
  split
  · exact .stall .rx s
  · exact .refl s

theorem Announced.stallShortIn (s : State) : Announced s (stallShortIn s) := by
  unfold Machine.stallShortIn
  split
  · exact .stall .tx s
  · exact .refl s

theorem Announced.finishCommand (s : State) : Announced s (finishCommand s) :=
  ((Announced.setBusy false s).trans (.stallShortIn _)).trans (.silent rfl rfl fun _ h => h)

theorem Announced.enterStatus (s : State) : Announced s (enterStatus s) := by
  refine (Announced.stallUnfinishedOut s).trans ?_
  unfold Machine.enterStatus
  dsimp only
  generalize Machine.stallUnfinishedOut s = u
  rcases queueTx_cases (cswBytes u.ctx.tag u.ctx.residue u.ctx.status) u with ⟨-, -, e⟩ | ⟨-, e⟩ | ⟨-, -, e⟩ <;>
    rw [e] <;> dsimp only
  · refine .trans ?_ (.finishCommand _)
    exact .of_kept [_] rfl rfl fun _ h => h
  · exact .silent rfl rfl fun _ h => h
  · exact .silent rfl rfl fun _ h => h

theorem Announced.busReset (s : State) : Announced s (busReset s) := by
  refine (Announced.flushPipes s).trans (.trans ?_ ((Announced.cancelCommand _).trans (.setSt _ _)))
  exact .silent rfl rfl fun ep h => by cases ep <;> cases h

theorem execEvConfig_announced {s t : State} (he : execEvConfig s = .next t) : Announced s t := by
  injection he with he
  subst he
  have hcancel : Announced s (cancelCommand (startAllUnits (flushPipes s))) :=
    ((Announced.flushPipes s).trans (.silent rfl rfl fun _ h => h)).trans
      (.cancelCommand _)
  refine hcancel.trans (.trans ?_ (.setSt _ _))
  split
  · exact .stallBoth _
  · exact .refl _

theorem execEvTxDrained_announced {s t : State} (he : execEvTxDrained s = .next t) : Announced s t := by
  unfold execEvTxDrained at he
  split at he <;> injection he with he <;> subst he
  · refine .trans ?_ (.setSt _ _)
    split
    · exact .stallBoth _
    · exact .refl _
  · exact .refl s

theorem execClearFeature_announced {ep : Endpoint} {s t : State}
    (he : execClearFeatureEndpointHalt ep s = .next t) : Announced s t := by
  injection he with he
  subst he
  have hunstall : Announced s (if s.ctx.phaseError then s else unstall ep s) := by
    split
    · exact .refl s
    · exact .unstall ep s
  have hanswer : ∀ u : State,
      Announced u ((if u.cfg.superspeed then u.emit (.seqReset ep) else u).emit .ctrlAck) := by
    intro u
    refine .trans ?_ (.emit _ _)
    split
    · exact .emit _ _
    · exact .refl _
  exact hunstall.trans (hanswer _)

theorem execBotReset_announced {s t : State} (he : execBotReset s = .next t) : Announced s t := by
  unfold execBotReset at he
  split at he <;> injection he with he <;> subst he
  · exact .emit _ _
  · refine (Announced.flushPipes s).trans
      (.trans ?_ (((Announced.cancelCommand _).trans (.setSt _ _)).trans (.emit _ _)))
    exact .silent rfl rfl fun _ h => h

theorem CommandFrame.announced {h : CbwHeader} {s t : State} (hf : CommandFrame h s t) : Announced s t :=
  .silent hf.trace (by rw [hf.ctx]; rfl) fun ep ht => hf.halted ep ▸ ht

theorem RxOutcome.announced {s t : State} (ho : RxOutcome s t) : Announced s t := by
  cases ho with
  | same => exact .refl s
  | lost env => exact .silent rfl rfl fun _ h => h
  | phaseError b csw env => exact .of_kept [_, _] (List.append_assoc _ _ _) rfl fun _ h => h
  | stuck b env => exact .of_kept [_] rfl rfl fun _ h => h
  | command b i env t _ _ _ _ hf he =>
    obtain ⟨h, -, hframe⟩ := command_frame_of_format hf he
    refine .trans ?_ hframe.announced
    exact ⟨[.pipeDiscard, .lpmAllow false], List.append_assoc _ _ _, fun _ => by simp, fun ep hs ht => by
      have hkept : s.halted ep = true := ht
      simp [hkept] at hs⟩
  | payloadLost env => exact .silent rfl rfl fun _ h => h
  | payload pos remaining b env => exact .of_kept [_, _] (List.append_assoc _ _ _) rfl fun _ h => h

theorem DataStepOutcome.announced {s t : State} (ho : DataStepOutcome s t) : Announced s t := by
  cases ho with
  | same => exact .refl s
  | failed env => exact .silent rfl rfl fun _ h => h
  | sent n bytes env => exact .of_kept [_] rfl rfl fun _ h => h

theorem exec_announced {i : Instr} {s t : State} (he : exec i s = .next t) : Announced s t := by
  cases hi : i.header with
  | some h => exact (command_frame i s t h hi he).announced
  | none =>
    cases i <;> try (cases hi; done)
    case clearFeatureEndpointHalt => exact execClearFeature_announced he
    case getMaxLun => injection he with he; exact he ▸ .emit _ _
    case botReset => exact execBotReset_announced he
    case evConfig => exact execEvConfig_announced he
    case evBusReset => injection he with he; exact he ▸ .busReset s
    case evDisconnect => injection he with he; exact he ▸ .busReset s
    case evSuspend => injection he with he; exact he ▸ .refl s
    case evRxReady => exact (exec_rxReady_outcome s t _ (.inl rfl) he).announced
    case evRxReadyData => exact (exec_rxReady_outcome s t _ (.inr rfl) he).announced
    case evTxDrained => exact execEvTxDrained_announced he
    case evCtrl req =>
      cases req with
      | clearHalt ep => exact execClearFeature_announced he
      | getMaxLun => injection he with he; exact he ▸ .emit _ _
      | botReset => exact execBotReset_announced he
      | setFeatureHalt ep => cases he
      | getStatus => cases he
      | setInterface => cases he
      | getInterface => cases he
    case evMedia l present =>
      have he : execEvMedia l present s = .next t := he
      unfold execEvMedia at he
      split at he
      · injection he with he
        exact he ▸ .silent rfl rfl fun _ h => h
      · cases he
    case dataStepTx => exact (exec_dataStepTx_outcome s t he).announced
    case dispatchDone =>
      have he : execDispatchDone s = .next t := he
      unfold execDispatchDone at he
      split at he <;> injection he with he <;> subst he
      · exact .enterStatus s
      · exact .refl s

/-- Settles O56: every part of an instruction that writes busy emits the link-power action with it. -/
theorem busyChangesAreAnnouncedToLinkPower : Obligations.BusyChangesAreAnnouncedToLinkPower := by
  intro i s t he hne
  obtain ⟨new, htrace, hbusy, -⟩ := exec_announced he
  rw [htrace, List.drop_left]
  exact hbusy hne

/-! ### The halts (R33) -/

/-- Who writes a halt bit, and what it writes. -/
theorem exec_halted {i : Instr} {s t : State} (he : exec i s = .next t) (ep : Endpoint) :
    t.halted ep = s.halted ep ∨
    (t.halted ep = true ∧
      (i = .dispatchDone ∨ ((i = .evTxDrained ∨ i = .evConfig) ∧ s.ctx.phaseError = true))) ∨
    (t.halted ep = false ∧
      (i = .evBusReset ∨ i = .evDisconnect ∨
        ((i = .clearFeatureEndpointHalt ep ∨ i = .evCtrl (.clearHalt ep)) ∧ s.ctx.phaseError = false))) := by
  cases exec_effect he with
  | command h _ hf _ => exact .inl (hf.halted ep)
  | received _ ho =>
    cases ho with
    | command b j env t _ _ _ _ hfmt he =>
      obtain ⟨h, -, hf⟩ := command_frame_of_format hfmt he
      exact .inl (hf.halted ep)
    | _ => exact .inl rfl
  | dataStep ho => cases ho <;> exact .inl rfl
  | cswQueued haltRx haltTx csw trace env _ _ _ _ hrx htx =>
    cases ep <;> simp only [State.halted]
    · cases haltRx <;> cases hs : s.haltRx <;> simp_all
    · cases haltTx <;> cases hs : s.haltTx <;> simp_all
  | cswStuck haltRx trace env _ _ hrx =>
    cases ep <;> simp only [State.halted]
    · cases haltRx <;> cases hs : s.haltRx <;> simp_all
    · exact .inl trivial
  | answered trace _ => exact .inl rfl
  | haltCleared ep' trace hi hpe =>
    have hset := halted_setHalt s ep' ep false
    by_cases hep : ep' = ep
    · subst hep
      exact .inr (.inr ⟨hset.trans (if_pos rfl), .inr (.inr ⟨hi, hpe⟩)⟩)
    · exact .inl (hset.trans (if_neg hep))
  | configured trace =>
    cases hpe : s.ctx.phaseError
    · exact .inl (by cases ep <;> rfl)
    · exact .inr (.inl ⟨by cases ep <;> rfl, .inr ⟨.inr rfl, rfl⟩⟩)
  | busReset trace hi => exact .inr (.inr ⟨by cases ep <;> rfl, hi.imp_right .inl⟩)
  | botReset trace _ => exact .inl rfl
  | drained trace _ _ =>
    cases hpe : s.ctx.phaseError
    · exact .inl (by cases ep <;> rfl)
    · exact .inr (.inl ⟨by cases ep <;> rfl, .inr ⟨.inl rfl, rfl⟩⟩)
  | media l present => exact .inl rfl

/-- Settles O54: the writers of a halt bit, with the stall on the trace where one sets it. -/
theorem haltBitsHaveOnlyTheirWriters : Obligations.HaltBitsHaveOnlyTheirWriters := by
  intro i s t ep he
  obtain ⟨new, htrace, -, hstall⟩ := exec_announced he
  rw [htrace, List.drop_left]
  have hwriter := exec_halted he ep
  exact ⟨fun hs ht => ⟨hstall ep hs ht, by simpa [hs, ht] using hwriter⟩,
    fun hs ht => by simpa [hs, ht] using hwriter⟩

/-! ### The phase error (R24, R154, R308) -/

theorem evRxReady_of_cbwWait {i : Instr} {s : State}
    (hi : i = .evRxReady ∨ (i = .evRxReadyData ∧ s.ctx.st = .dispatched)) (hst : s.ctx.st = .cbwWait) :
    i = .evRxReady := hi.resolve_right fun h => by simp [hst] at h

/-- Who writes the phase-error flag, and what it writes. -/
theorem exec_phaseError {i : Instr} {s t : State} (he : exec i s = .next t) :
    t.ctx.phaseError = s.ctx.phaseError ∨
    (t.ctx.phaseError = false ∧
      (i = .botReset ∨ i = .evCtrl .botReset ∨ i = .evBusReset ∨ i = .evDisconnect)) ∨
    (t.ctx.phaseError = true ∧ i = .evRxReady ∧ s.ctx.st = .cbwWait ∧ t.ctx.status = .phaseError ∧
      ∃ b, s.rxq.head? = some b ∧ cbwValid b = false) := by
  cases exec_effect he with
  | command h _ hf _ => exact .inl (by rw [hf.ctx]; rfl)
  | received hi ho =>
    cases ho with
    | phaseError b csw env hst _ hb hv =>
      exact .inr (.inr ⟨rfl, evRxReady_of_cbwWait hi hst, hst, rfl, b, hb, hv⟩)
    | stuck b env hst _ hb hv =>
      exact .inr (.inr ⟨rfl, evRxReady_of_cbwWait hi hst, hst, rfl, b, hb, hv⟩)
    | command b j env t _ _ _ _ hfmt he =>
      obtain ⟨h, -, hf⟩ := command_frame_of_format hfmt he
      exact .inl (by rw [hf.ctx]; rfl)
    | _ => exact .inl rfl
  | dataStep ho => cases ho <;> exact .inl rfl
  | haltCleared ep trace _ _ => exact .inl (congrArg Ctx.phaseError (setHalt_ctx s ep false))
  | busReset trace hi => exact .inr (.inl ⟨rfl, .inr (.inr hi)⟩)
  | botReset trace hi => exact .inr (.inl ⟨rfl, hi.imp_right .inl⟩)
  | _ => exact .inl rfl

/-- In a phase error no CBW is copied (R24, R155). -/
theorem exec_cbw_of_phaseError {i : Instr} {s t : State} (he : exec i s = .next t)
    (hpe : s.ctx.phaseError = true) : t.ctx.cbw = s.ctx.cbw := by
  cases exec_effect he with
  | command h _ hf _ => rw [hf.ctx]; rfl
  | received _ ho =>
    cases ho with
    | command b j env t _ hno => simp [hpe] at hno
    | _ => rfl
  | dataStep ho => cases ho <;> rfl
  | haltCleared ep trace _ _ => exact congrArg Ctx.cbw (setHalt_ctx s ep false)
  | _ => rfl

/-- Settles O53: the writers of the phase-error flag, and no copy while it is set. -/
theorem phaseErrorHasOnlyItsEntryAndItsExits : Obligations.PhaseErrorHasOnlyItsEntryAndItsExits := by
  intro i s t he
  have hwriter := exec_phaseError he
  exact ⟨fun hs ht => by simpa [hs, ht] using hwriter, fun hs ht => by simpa [hs, ht] using hwriter,
    exec_cbw_of_phaseError he⟩

/-! ### The LUN records (R35 to R38) -/

/-- The instruction is the command `j`, or receives it as a valid CBW (R151, R330). -/
def Runs (i : Instr) (s : State) (j : Instr) : Prop :=
  i = j ∨ (i = .evRxReady ∧ ∃ b, s.rxq.head? = some b ∧ decodeCbw s.cfg b = .ok j)

/-- How one LUN record can change in a step, with the reason each change needs (R35 to R38, R42). -/
inductive LunChange (i : Instr) (s t : State) (l : Nat) (u : Lun) : Lun → Prop
  | same : LunChange i s t l u u
  | stored (m : Memory) : LunChange i s t l u { u with store := m }
  | media (p : Bool) : i = .evMedia l p →
      LunChange i s t l u { u with mediaPresent := p, lastSense := .mediaChanged }
  | started : i = .evConfig → LunChange i s t l u { u with stopped := false }
  | switched (h : CbwHeader) (loej start b : Bool) : Runs i s (.startStopUnit h loej start) → h.lun.toNat = l →
      LunChange i s t l u { u with stopped := b }
  | commandFailed (h : CbwHeader) (j : Instr) (x : Sense) : Runs i s j → j.header = some h → h.lun.toNat = l →
      t.ctx.lunSel = h.lun → t.ctx.status = .failed → LunChange i s t l u { u with lastSense := x }
  | transferFailed : i = .dataStepTx ∨ i = .evRxReady ∨ i = .evRxReadyData → s.ctx.xfer ≠ .none →
      t.ctx.lunSel.toNat = l → t.ctx.status = .failed → LunChange i s t l u { u with lastSense := .crcError }
  | reported (h : CbwHeader) : Runs i s (.requestSense h) → h.lun.toNat = l → t.ctx.lunSel = h.lun →
      LunChange i s t l u { u with lastSense := .ok }

/-- A record after one record was changed: that change if it is the one, else itself. -/
theorem of_getElem?_modify {luns : List Lun} {k l : Nat} {f : Lun → Lun} {u v : Lun} (hu : luns[l]? = some u)
    (hv : (luns.modify k f)[l]? = some v) : (v = u ∧ k ≠ l) ∨ (v = f u ∧ k = l) := by
  rw [List.getElem?_modify, hu] at hv
  injection hv with hv
  by_cases hk : k = l
  · exact .inr ⟨by simpa [hk] using hv.symm, hk⟩
  · exact .inl ⟨by simpa [hk] using hv.symm, hk⟩

/-- A step that leaves the records leaves each. -/
theorem LunChange.of_eq {i : Instr} {s t : State} {l : Nat} {u v : Lun} (hu : s.luns[l]? = some u)
    (hv : s.luns[l]? = some v) : LunChange i s t l u v := by
  rw [hu] at hv
  injection hv with hv
  exact hv ▸ .same

/-- What a command that `i` runs does to a record; `a` is the state it is dispatched on. -/
theorem CommandOutcome.lunChange {i j : Instr} {h : CbwHeader} {s a t : State} (ho : CommandOutcome h a j t)
    (hj : j.header = some h) (hrun : Runs i s j) {l : Nat} {u v : Lun} (hu : a.luns[l]? = some u)
    (hv : t.luns[l]? = some v) : LunChange i s t l u v := by
  cases ho with
  | failed x =>
    rcases of_getElem?_modify hu hv with ⟨rfl, -⟩ | ⟨rfl, hl⟩
    · exact .same
    · exact .commandFailed h j x hrun hj hl rfl rfl
  | passed x _ =>
    have hv : a.luns[l]? = some v := hv
    rw [hu] at hv
    injection hv with hv
    exact hv ▸ .same
  | unitSwitched loej start =>
    rcases of_getElem?_modify hu hv with ⟨rfl, -⟩ | ⟨rfl, hl⟩
    · exact .same
    · exact .switched h loej start _ hrun hl
  | senseReported x _ =>
    rcases of_getElem?_modify hu hv with ⟨rfl, -⟩ | ⟨rfl, hl⟩
    · exact .same
    · exact .reported h hrun hl rfl

theorem RxOutcome.lunChange {i : Instr} {s t : State} (ho : RxOutcome s t)
    (hi : i = .evRxReady ∨ (i = .evRxReadyData ∧ s.ctx.st = .dispatched)) {l : Nat} {u v : Lun}
    (hu : s.luns[l]? = some u) (hv : t.luns[l]? = some v) : LunChange i s t l u v := by
  cases ho with
  | command b j env t hst _ hb hd hfmt he =>
    obtain ⟨h, hj⟩ := (format_eq_cbw_iff j).mp hfmt
    exact (exec_command_outcome hj he).lunChange hj (.inr ⟨evRxReady_of_cbwWait hi hst, b, hb, hd⟩) hu hv
  | payloadLost env hst hwr =>
    rcases of_getElem?_modify hu hv with ⟨rfl, -⟩ | ⟨rfl, hl⟩
    · exact .same
    · exact .transferFailed (.inr (hi.imp_right And.left)) (fun hx => by simp [hx, Xfer.isWrite] at hwr) hl rfl
  | payload pos remaining b env _ _ _ =>
    rcases of_getElem?_modify hu hv with ⟨rfl, -⟩ | ⟨rfl, -⟩
    · exact .same
    · exact .stored _
  | _ => exact .of_eq hu hv

theorem DataStepOutcome.lunChange {s t : State} (ho : DataStepOutcome s t) {l : Nat} {u v : Lun}
    (hu : s.luns[l]? = some u) (hv : t.luns[l]? = some v) : LunChange .dataStepTx s t l u v := by
  cases ho with
  | failed env _ hx =>
    rcases of_getElem?_modify hu hv with ⟨rfl, -⟩ | ⟨rfl, hl⟩
    · exact .same
    · exact .transferFailed (.inl rfl) hx hl rfl
  | _ => exact .of_eq hu hv

theorem exec_lunChange {i : Instr} {s t : State} (he : exec i s = .next t) {l : Nat} {u v : Lun}
    (hu : s.luns[l]? = some u) (hv : t.luns[l]? = some v) : LunChange i s t l u v := by
  cases exec_effect he with
  | command h hi _ ho => exact ho.lunChange hi (.inl rfl) hu hv
  | received hi ho => exact ho.lunChange hi hu hv
  | dataStep ho => exact ho.lunChange hu hv
  | haltCleared ep trace _ _ => exact .of_eq hu (setHalt_luns s ep false ▸ hv)
  | configured trace =>
    rw [List.getElem?_map, hu] at hv
    injection hv with hv
    exact hv ▸ .started rfl
  | media k present =>
    rcases of_getElem?_modify hu hv with ⟨rfl, -⟩ | ⟨rfl, rfl⟩
    · exact .same
    · exact .media present rfl
  | _ => exact .of_eq hu hv

theorem CommandOutcome.luns_length {h : CbwHeader} {i : Instr} {s t : State} (ho : CommandOutcome h s i t) :
    t.luns.length = s.luns.length := by
  cases ho with
  | passed x _ => rfl
  | _ => exact List.length_modify _ _ _

theorem exec_luns_length {i : Instr} {s t : State} (he : exec i s = .next t) :
    t.luns.length = s.luns.length := by
  cases exec_effect he with
  | command h _ _ ho => exact ho.luns_length
  | received _ ho =>
    cases ho with
    | command b j env t _ _ _ _ hfmt he =>
      obtain ⟨h, hj⟩ := (format_eq_cbw_iff j).mp hfmt
      exact (exec_command_outcome hj he).luns_length
    | payloadLost env _ _ => exact List.length_modify _ _ _
    | payload pos remaining b env _ _ _ => exact List.length_modify _ _ _
    | _ => rfl
  | dataStep ho =>
    cases ho with
    | failed env _ _ => exact List.length_modify _ _ _
    | _ => rfl
  | haltCleared ep trace _ _ => exact congrArg List.length (setHalt_luns s ep false)
  | configured trace => exact List.length_map _
  | media l present => exact List.length_modify _ _ _
  | _ => rfl

/-- Settles O51: each change a record can take, with its reason. -/
theorem lunFieldsHaveOnlyTheirWriters : Obligations.LunFieldsHaveOnlyTheirWriters := by
  intro i s t he
  refine ⟨exec_luns_length he, fun l u v hu hv => ?_⟩
  cases exec_lunChange he hu hv with
  | same => exact ⟨rfl, rfl, absurd rfl, absurd rfl, absurd rfl⟩
  | stored m => exact ⟨rfl, rfl, absurd rfl, absurd rfl, absurd rfl⟩
  | media p hi => exact ⟨rfl, rfl, fun _ => ⟨p, hi⟩, absurd rfl, fun _ => .inl ⟨p, hi⟩⟩
  | started hi => exact ⟨rfl, rfl, absurd rfl, fun _ => .inl hi, absurd rfl⟩
  | switched h loej start b hrun hl =>
    exact ⟨rfl, rfl, absurd rfl, fun _ => .inr ⟨h, loej, start, hl, hrun⟩,
      absurd rfl⟩
  | commandFailed h j x hrun hj hl hsel hstatus =>
    refine ⟨rfl, rfl, absurd rfl, absurd rfl,
      fun _ => .inr ⟨hsel ▸ hl, .inl ⟨hstatus, ?_⟩⟩⟩
    rcases hrun with rfl | ⟨hi, b, hb, hd⟩
    · exact .inl ⟨h, hj, hl⟩
    · exact .inr (.inl ⟨hi, b, j, h, hb, hd, hj, hl⟩)
  | transferFailed hi hx hl hstatus =>
    exact ⟨rfl, rfl, absurd rfl, absurd rfl,
      fun _ => .inr ⟨hl, .inl ⟨hstatus, .inr (.inr ⟨hi, hx, rfl⟩)⟩⟩⟩
  | reported h hrun hl hsel =>
    exact ⟨rfl, rfl, absurd rfl, absurd rfl,
      fun _ => .inr ⟨hsel ▸ hl, .inr ⟨rfl, h, hrun⟩⟩⟩

/-! ### The stores (R42, R61, R253) -/

theorem storeByte_eq (s : State) (l a : Nat) :
    s.storeByte l a = ((s.luns.map Lun.store)[l]?).map fun m => m.byte a := by
  rw [List.getElem?_map, Option.map_map]
  rfl

theorem CommandOutcome.stores {h : CbwHeader} {i : Instr} {s t : State} (ho : CommandOutcome h s i t) :
    t.luns.map Lun.store = s.luns.map Lun.store := by
  cases ho with
  | passed x _ => rfl
  | _ => exact map_modify_of_kept _ _ _ _ fun _ => by rfl

/-- The only instruction that touches a store writes a payload buffer at the data phase's position (R253). -/
theorem exec_stores {i : Instr} {s t : State} (he : exec i s = .next t) :
    t.luns.map Lun.store = s.luns.map Lun.store ∨
    (∃ pos b, storedRange i s = some (s.ctx.lunSel.toNat, pos, b.length) ∧
      t.luns = s.luns.modify s.ctx.lunSel.toNat fun u => { u with store := u.store.writeRange pos b }) := by
  cases exec_effect he with
  | command h _ _ ho => exact .inl ho.stores
  | received hi ho =>
    cases ho with
    | command b j env t _ _ _ _ hfmt he =>
      obtain ⟨h, hj⟩ := (format_eq_cbw_iff j).mp hfmt
      exact .inl (exec_command_outcome hj he).stores
    | payloadLost env _ _ => exact .inl (map_modify_of_kept _ _ _ _ fun _ => by rfl)
    | payload pos remaining b env hst hx hb =>
      obtain ⟨q, hq⟩ := List.head?_eq_some_iff.mp hb
      refine .inr ⟨pos, b, ?_, rfl⟩
      rcases hi with rfl | ⟨rfl, -⟩ <;> simp [storedRange, Instr.header, hx, hq, hst]
    | _ => exact .inl rfl
  | dataStep ho =>
    cases ho with
    | failed env _ _ => exact .inl (map_modify_of_kept _ _ _ _ fun _ => by rfl)
    | _ => exact .inl rfl
  | haltCleared ep trace _ _ => exact .inl (congrArg (List.map Lun.store) (setHalt_luns s ep false))
  | configured trace => exact .inl (List.map_map)
  | media l present => exact .inl (map_modify_of_kept _ _ _ _ fun _ => by rfl)
  | _ => exact .inl rfl

/-- A payload write leaves every byte outside its range (R61, R68). -/
theorem storeByte_writePayload {s t : State} (hwf : ∀ u ∈ s.luns, u.store.wf) {k pos l a : Nat} {b : Buffer}
    (ht : t.luns = s.luns.modify k fun u => { u with store := u.store.writeRange pos b })
    (hout : l ≠ k ∨ a < pos ∨ pos + b.length ≤ a) : t.storeByte l a = s.storeByte l a := by
  unfold State.storeByte
  rw [ht, List.getElem?_modify]
  cases hu : s.luns[l]? with
  | none => rfl
  | some u =>
    by_cases hk : k = l
    · have hrange : ¬ (pos ≤ a ∧ a < pos + b.length) := by
        rcases hout with hne | hout
        · exact absurd hk.symm hne
        · omega
      simp [hk, Memory.byte_writeRange _ _ _ _ (hwf u (List.mem_of_getElem? hu)), hrange]
    · simp [hk]

/-- Settles O52: all stores stand, or one has a payload buffer written inside `storedRange`. -/
theorem storesChangeOnlyWhereTheStoredBytesGo : Obligations.StoresChangeOnlyWhereTheStoredBytesGo := by
  intro i s t hwf he l a hout
  rcases exec_stores he with hsame | ⟨pos, b, hrange, ht⟩
  · rw [storeByte_eq, storeByte_eq, hsame]
  · exact storeByte_writePayload hwf ht (hout _ _ _ hrange)

end Sys2Proof.Machine
end

section
/-! PROOFS. Scope: what one step leads to. The instruction a received CBW runs (R151, R152), the fate of the
buffers committed for the host (R73, R75), and the answers possible under the invariant (R61, R186). -/

namespace Sys2Proof.Machine

/-! ### The command a step runs (R78, R151, R152) -/

/-- One test of the decoder: the instruction it stands before, or what remains once it has failed. -/
theorem wellFormed_ite {c : Config} {p : Prop} [Decidable p] {i j : Instr} (hi : wellFormed c i = true)
    (hj : ¬ p → wellFormed c j = true) : wellFormed c (if p then i else j) = true := by
  split
  next => exact hi
  next hp => exact hj hp

/-- A page that is none of the four supported ones decodes as unsupported (R99, R225). -/
theorem wellFormed_decodeInquiry (c : Config) (h : CbwHeader) (cb : List Byte) :
    wellFormed c (decodeInquiry c h cb) = true :=
  wellFormed_ite rfl fun _ => wellFormed_ite rfl fun hsupported => wellFormed_ite rfl fun hserial =>
  wellFormed_ite rfl fun hdevId => wellFormed_ite rfl fun hblkLim => by
    simp [wellFormed, Config.vpdPages, hsupported, hserial, hdevId, hblkLim]

/-- An opcode that is none of the eleven decodes as unknown (R102, R205). -/
theorem wellFormed_decodeCommand (c : Config) (h : CbwHeader) (cb : List Byte) :
    wellFormed c (decodeCommand c h cb) = true :=
  wellFormed_ite rfl fun htur => wellFormed_ite rfl fun hsense =>
  wellFormed_ite (wellFormed_decodeInquiry c h cb) fun hinquiry =>
  wellFormed_ite rfl fun hmode => wellFormed_ite rfl fun hstart => wellFormed_ite rfl fun hprevent =>
  wellFormed_ite rfl fun hfmt => wellFormed_ite rfl fun hcap => wellFormed_ite rfl fun hread =>
  wellFormed_ite rfl fun hwrite => wellFormed_ite rfl fun hverify => by
    simp [wellFormed, Config.opcodes, htur, hsense, hinquiry, hmode, hstart, hprevent, hfmt, hcap, hread, hwrite,
      hverify]

/-- A buffer that decodes carries the command of its command block (R93, R104). -/
theorem eq_decodeAcceptedCbw {c : Config} {b : List Byte} {i : Instr} (h : decodeCbw c b = .ok i) :
    i = decodeAcceptedCbw c b := by
  unfold decodeCbw at h
  split at h
  · split at h
    · injection h with h
      exact h.symm
    · cases h
  · cases h

theorem wellFormed_of_decodeCbw {c : Config} {b : List Byte} {i : Instr} (h : decodeCbw c b = .ok i) :
    wellFormed c i = true :=
  eq_decodeAcceptedCbw h ▸ wellFormed_decodeCommand c _ _

theorem step_worker {s : State} {pick : WorkerPick} {rest : List Turn} (hcfg : configInRange s.cfg = true)
    (hs : s.env.schedule = .worker pick :: rest) :
    step s = runTaken (workerStep pick (s.setSchedule rest)) (s.setSchedule rest) := by
  simp only [step, hcfg, hs, if_true]

/-- With no internal step enabled, the worker takes the head event, whatever its pick (R301). -/
theorem workerStep_headEvent {s : State} (pick : WorkerPick) {e : Event} {q : List Event}
    (hi : internalStep s = none) (hq : s.evq = e :: q) :
    workerStep pick s = some (instrOfEvent e s, { s with evq := q }) := by
  simp only [workerStep, takeEvent, hi, hq]

/-- Outside `DISPATCHED` a received buffer is a row EV_RX_READY (R112). -/
theorem instrOfEvent_rxReady_idle {s : State} (hst : s.ctx.st ≠ .dispatched) :
    instrOfEvent .rxReady s = .evRxReady := by
  simp [instrOfEvent, hst]

/-- A buffer that decodes is accepted, and its command runs (R151, R152). -/
theorem parseCbw_accepted {s : State} {b : Buffer} {i : Instr} (h : decodeCbw s.cfg b = .ok i) :
    parseCbw b s = exec i (acceptCbw b s) := by
  rw [← dispatchCommand_eq_exec i _ (decodeCbw_format _ _ _ h)]
  simp only [parseCbw, h]

/-- Settles O9: in `CBW_WAIT` no internal step is enabled, so the worker consumes EV_RX_READY, and the buffer it
acquires is accepted and dispatched. -/
theorem stepRunsTheDecodedCommand : Obligations.StepRunsTheDecodedCommand := by
  intro s pick rest q b r i hcfg hs hq hrx hst hpe hw ha hd
  refine ⟨wellFormed_of_decodeCbw hd, ?_⟩
  have hidle : s.ctx.st ≠ .dispatched := by simp [hst]
  have hi : internalStep (s.setSchedule rest) = none := (internalStep_eq_none_iff _).mpr (.inl hidle)
  have hrow : instrOfEvent .rxReady (s.setSchedule rest) = .evRxReady := instrOfEvent_rxReady_idle hidle
  rw [step_worker hcfg hs, workerStep_headEvent pick hi hq, hrow]
  calc exec .evRxReady { s.setSchedule rest with evq := q }
      = parseCbw b { s with evq := q, rxq := r, trace := s.trace ++ [.pipeDiscard]
                            env := { s.env.drawn 1 0 1 with schedule := rest } } :=
        exec_rxReady_parse _ b r hst hpe hw hrx ha
    _ = exec i (acceptCbw b { s with evq := q, rxq := r, trace := s.trace ++ [.pipeDiscard]
                                     env := { s.env.drawn 1 0 1 with schedule := rest } }) :=
        parseCbw_accepted hd
    _ = _ := by simp [acceptCbw, setBusy, State.emit, State.setSt]

/-! ### The buffers committed for the host (R73, R75, R142) -/

/-- What one step can do to the buffers on their way to the host: it commits some at the end of `TX.q`, it
delivers the head of `TX.q`, or it resets the pipe and says so on the trace. -/
def TxChange (s t : State) : Prop :=
  (t.hostRx = s.hostRx ∧ ∃ new, t.txq = s.txq ++ new) ∨
    (∃ b, s.txq = b :: t.txq ∧ t.hostRx = s.hostRx ++ [b]) ∨
    (t.hostRx = s.hostRx ∧ t.txq = [] ∧ Action.pipeReset .tx ∈ t.trace.drop s.trace.length)

theorem TxChange.committed {s t : State} (new : List Buffer) (hhost : t.hostRx = s.hostRx)
    (htxq : t.txq = s.txq ++ new) : TxChange s t := .inl ⟨hhost, new, htxq⟩

theorem TxChange.kept {s t : State} (hhost : t.hostRx = s.hostRx) (htxq : t.txq = s.txq) : TxChange s t :=
  .committed [] hhost (by rw [htxq, List.append_nil])

/-- A rule that flushes the pipes and then only adds to the trace. -/
theorem TxChange.flushed {s t : State} (h : Announced (flushPipes s) t) (hhost : t.hostRx = s.hostRx)
    (htxq : t.txq = []) : TxChange s t := by
  obtain ⟨new, htrace, -, -⟩ := h
  exact .inr (.inr ⟨hhost, htxq, by simp [htrace]⟩)

theorem CommandFrame.hostRx {h : CbwHeader} {s t : State} (hf : CommandFrame h s t) : t.hostRx = s.hostRx :=
  (congrArg State.hostRx hf.eq :)

theorem CommandFrame.txChange {h : CbwHeader} {s t : State} (hf : CommandFrame h s t) : TxChange s t :=
  .kept hf.hostRx hf.txq

/-- After its flush EV_CONFIG only adds to the trace (R302). -/
theorem execEvConfig_after_flush {s t : State} (he : execEvConfig s = .next t) : Announced (flushPipes s) t := by
  injection he with he
  subst he
  have hcancel : Announced (flushPipes s) (cancelCommand (startAllUnits (flushPipes s))) :=
    .trans (.silent rfl rfl fun _ h => h) (.cancelCommand _)
  refine hcancel.trans (.trans ?_ (.setSt _ _))
  split
  · exact .stallBoth _
  · exact .refl _

/-- After its flush a bus reset only adds to the trace (R303). -/
theorem busReset_after_flush (s : State) : Announced (flushPipes s) (busReset s) := by
  refine .trans ?_ ((Announced.cancelCommand _).trans (.setSt _ _))
  exact .silent rfl rfl fun ep h => by cases ep <;> cases h

/-- BOT_RESET is only acknowledged in `INACTIVE`, and flushes the pipes elsewhere (R334). -/
theorem execBotReset_txChange {s t : State} (he : execBotReset s = .next t) : TxChange s t := by
  unfold execBotReset at he
  split at he <;> injection he with he <;> subst he
  next => exact .kept rfl rfl
  next =>
    refine .flushed (.trans ?_ (((Announced.cancelCommand _).trans (.setSt _ _)).trans (.emit _ _)))
      (by simp [cancelCommand_eq]) (by simp [cancelCommand_eq])
    exact .silent rfl rfl fun _ h => h

/-- No instruction delivers a buffer: it commits buffers at the end of `TX.q`, or flushes the pipes. -/
theorem exec_txChange {i : Instr} {s t : State} (he : exec i s = .next t) : TxChange s t := by
  cases exec_effect he with
  | command h _ hf _ => exact hf.txChange
  | received _ ho =>
    cases ho with
    | phaseError b csw env => exact .committed [csw] rfl rfl
    | command b j env t _ _ _ _ hf he =>
      obtain ⟨h, -, hframe⟩ := command_frame_of_format hf he
      exact .kept hframe.hostRx hframe.txq
    | _ => exact .kept rfl rfl
  | dataStep ho =>
    cases ho with
    | sent n bytes env => exact .committed [bytes] rfl rfl
    | _ => exact .kept rfl rfl
  | cswQueued haltRx haltTx csw trace env => exact .committed [csw] rfl rfl
  | haltCleared ep trace => exact .kept (setHalt_hostRx s ep false) (setHalt_txq s ep false)
  | configured trace => exact .flushed (execEvConfig_after_flush he) rfl rfl
  | busReset trace hi =>
    have he' : Host.Outcome.next (busReset s) = exec i s := by rcases hi with rfl | rfl <;> rfl
    injection he'.trans he with he'
    exact .flushed (he' ▸ busReset_after_flush s) rfl rfl
  | botReset trace hi => rcases hi with rfl | rfl <;> exact execBotReset_txChange he
  | _ => exact .kept rfl rfl

/-- Only TxDrain delivers a buffer, the head of `TX.q` (R142). -/
theorem txDrain_txChange (s : State) : TxChange s (txDrain s) := by
  rcases txDrain_cases s with e | ⟨b, q, hq, -, e⟩ <;> rw [e]
  · exact .kept rfl rfl
  · exact .inr (.inl ⟨b, hq, rfl⟩)

theorem step_txChange {s t : State} (h : step s = .next t) : TxChange s t := by
  cases step_outcome h with
  | waited env => exact .kept rfl rfl
  | ran i evq env _ _ he => exact (exec_txChange he :)
  | filled bytes rest =>
    rcases rxFill_cases bytes (s.setSchedule rest) with e | e <;> rw [e] <;> exact .kept rfl rfl
  | drained rest => exact txDrain_txChange (s.setSchedule rest)
  | posted e rest =>
    rcases postEvent_cases e (s.setSchedule rest) with he | he <;> rw [he] <;> exact .kept rfl rfl

/-- Settles O16: a commit grows the stream at its end, a delivery moves the boundary between its two parts, and
nothing else but a reset of the pipe touches it. -/
theorem hostReceivesBuffersInCommitOrder : Obligations.HostReceivesBuffersInCommitOrder := by
  intro s t h
  rcases step_txChange h with ⟨hhost, new, htxq⟩ | ⟨b, htxq, hhost⟩ | hreset
  · exact .inl ⟨new, by rw [hhost, htxq, List.append_assoc], ⟨[], by rw [hhost, List.append_nil]⟩⟩
  · exact .inl ⟨[], by simp [hhost, htxq], ⟨[b], hhost.symm⟩⟩
  · exact .inr hreset

/-! ### The answers of a step (R61, R104, R253, R309, R336) -/

/-- The answers of a machine that makes no access outside a store: a next state, or one of the four refusals the
spec asks for. -/
inductive Answered : Result → Prop
  | next (t : State) : Answered (.next t)
  | cbLength : Answered (.refused .cbLengthOutOfRange)
  | overrun : Answered (.refused .payloadOverrun)
  | requestWithoutRule : Answered (.refused .controlRequestWithoutRule)
  | absentLun : Answered (.refused .mediaLunOutOfRange)

/-- Every SCSI command answers a next state: its failures are next states too (R177, R358). -/
theorem exec_command_answered {i : Instr} {h : CbwHeader} (hi : i.header = some h) (s : State) :
    Answered (exec i s) := by
  cases i <;> try (cases hi; done)
  all_goals exact .next _

/-- A received buffer is refused only for a `cbLength` without a meaning (R104, R151). -/
theorem parseCbw_answered (b : Buffer) (s : State) : Answered (parseCbw b s) := by
  cases hd : decodeCbw s.cfg b with
  | ok i =>
    obtain ⟨h, hi⟩ := (format_eq_cbw_iff i).mp (decodeCbw_format _ _ _ hd)
    exact parseCbw_accepted hd ▸ exec_command_answered hi _
  | error e =>
    simp only [parseCbw, hd]
    cases e with
    | badCbLength => exact .cbLength
    | _ => exact .next _

theorem receiveCbw_answered (s : State) : Answered (receiveCbw s) := by
  unfold receiveCbw
  rcases pipeAcquireRx_cases s with ⟨b, -, -, e⟩ | ⟨-, e⟩ <;> rw [e]
  · exact parseCbw_answered b _
  · exact .next _

/-- A range that is not empty lies inside the selected store only if that LUN exists. -/
theorem selectedLun_of_range {s : State} {pos n : Nat} (hn : 1 ≤ n) (hin : pos + n ≤ selectedCapacity s) :
    ∃ u, s.luns[s.ctx.lunSel.toNat]? = some u ∧ pos + n ≤ u.capacity := by
  unfold selectedCapacity at hin
  split at hin
  next => omega
  next u hu => exact ⟨u, hu, hin⟩

theorem memWrite_inside {s : State} {l pos : Nat} {b : Buffer} {u : Lun} (hu : s.luns[l]? = some u)
    (hin : pos + b.length ≤ u.capacity) : ∃ t, memWrite l pos b s = some t := by
  simp only [memWrite, hu, hin, if_true]
  exact ⟨_, rfl⟩

/-- A payload buffer no longer than what remains is stored, a longer one refused (R253). -/
theorem storePayload_answered {s : State} {pos remaining : Nat} (b : Buffer) {u : Lun}
    (hu : s.luns[s.ctx.lunSel.toNat]? = some u) (hin : pos + remaining ≤ u.capacity) :
    Answered (storePayload b pos remaining s) := by
  unfold storePayload
  split
  next => exact .overrun
  next hle =>
    obtain ⟨t, ht⟩ := memWrite_inside (s := s) (pos := pos) (b := b) hu (by omega)
    rw [ht]
    exact .next _

theorem receivePayload_answered {s : State} {pos remaining : Nat} {u : Lun}
    (hu : s.luns[s.ctx.lunSel.toNat]? = some u) (hin : pos + remaining ≤ u.capacity) :
    Answered (receivePayload pos remaining s) := by
  unfold receivePayload
  rcases pipeAcquireRx_cases s with ⟨b, -, -, e⟩ | ⟨-, e⟩ <;> rw [e]
  · exact storePayload_answered b hu hin
  · exact .next _

theorem exec_evRxReady_answered {s : State} (h : Inv s) : Answered (exec .evRxReady s) := by
  have e : exec .evRxReady s = execEvRxReady s := rfl
  have hdata := h.dataPhase
  rw [e]
  unfold execEvRxReady
  split
  next => exact .next _
  split
  next => exact receiveCbw_answered s
  split
  next =>
    cases hx : s.ctx.xfer with
    | wr pos remaining =>
      simp only [dataPhaseOk, hx] at hdata
      obtain ⟨hpos, -, -, hend⟩ := hdata
      obtain ⟨u, hu, hin⟩ := selectedLun_of_range hpos hend
      exact receivePayload_answered hu hin
    | _ => exact .next _
  next => exact .next _

/-- A device→host step that has its chunk answers a next state, sent or failed (R181, R183). -/
theorem sendChunk_answered (n : Nat) (chunk : List Byte) (s : State) : Answered (sendChunk n (some chunk) s) := by
  by_cases ha : s.nextAcquire = .buffer
  · cases hc : s.commitAfter 1 with
    | ok => exact sendChunk_sent n chunk s ha hc ▸ .next _
    | fail => exact sendChunk_commit_failed n chunk s ha hc ▸ .next _
  · exact sendChunk_acquire_failed n (some chunk) s ha ▸ .next _

/-- The bytes a data step sends exist: a READ(10) stays inside the selected store (R61, R186). -/
theorem exec_dataStepTx_answered {s : State} (h : Inv s) : Answered (exec .dataStepTx s) := by
  have e : exec .dataStepTx s = execDataStepTx s := rfl
  have hdata := h.dataPhase
  rw [e]
  unfold execDataStepTx
  split
  next =>
    cases hx : s.ctx.xfer with
    | resp bytes pos remaining => exact sendChunk_answered _ _ s
    | rd pos remaining =>
      simp only [dataPhaseOk, hx] at hdata
      obtain ⟨hpos, -, -, hend⟩ := hdata
      obtain ⟨u, hu, hin⟩ := selectedLun_of_range hpos hend
      have hchunk : pos + min s.cfg.bufCap remaining ≤ u.capacity := by omega
      dsimp only
      rw [memRead_inside s _ _ _ u hu hchunk]
      exact sendChunk_answered _ _ s
    | _ => exact .next _
  next => exact .next _

theorem execBotReset_answered (s : State) : Answered (execBotReset s) := by
  unfold execBotReset
  split <;> exact .next _

/-- A forwarded request without a rule is refused (R336). -/
theorem execEvCtrl_answered (req : CtrlRequest) (s : State) : Answered (execEvCtrl req s) := by
  cases req with
  | clearHalt ep => exact .next _
  | getMaxLun => exact .next _
  | botReset => exact execBotReset_answered s
  | _ => exact .requestWithoutRule

/-- The only stops of an instruction under the invariant are the refusals of the spec. -/
theorem exec_answered {s : State} (h : Inv s) (i : Instr) : Answered (exec i s) := by
  cases hi : i.header with
  | some hd => exact exec_command_answered hi s
  | none =>
    cases i <;> try (cases hi; done)
    case clearFeatureEndpointHalt | getMaxLun | evConfig | evBusReset | evDisconnect | evSuspend => exact .next _
    case botReset => exact execBotReset_answered s
    case evRxReady => exact exec_evRxReady_answered h
    case evRxReadyData =>
      by_cases hst : s.ctx.st = .dispatched
      · exact exec_evRxReadyData_dispatched hst ▸ exec_evRxReady_answered h
      · exact exec_evRxReadyData_idle hst ▸ .next s
    case evTxDrained =>
      have e : exec .evTxDrained s = execEvTxDrained s := rfl
      rw [e, execEvTxDrained]
      split <;> exact .next _
    case evCtrl req => exact execEvCtrl_answered req s
    case evMedia l present =>
      have e : exec (.evMedia l present) s = execEvMedia l present s := rfl
      rw [e, execEvMedia]
      split
      next => exact .next _
      next => exact .absentLun
    case dataStepTx => exact exec_dataStepTx_answered h
    case dispatchDone =>
      have e : exec .dispatchDone s = execDispatchDone s := rfl
      rw [e, execDispatchDone]
      split <;> exact .next _

/-- The worker's turn: it waits, or runs an instruction on a state that differs in the event queue and the
environment alone. -/
theorem runTaken_answered {s : State} (h : Inv s) (pick : WorkerPick) (env env' : Env) :
    Answered (runTaken (workerStep pick { s with env := env }) { s with env := env' }) := by
  cases hw : workerStep pick { s with env := env } with
  | none => exact .next _
  | some taken =>
    obtain ⟨i, u⟩ := taken
    rcases workerStep_eq_some _ _ _ _ hw with ⟨-, rfl⟩ | ⟨e, q, -, -, rfl⟩
    · exact exec_answered (h.withOutputs s.evq s.hostRx s.trace env) i
    · exact exec_answered (h.withOutputs q s.hostRx s.trace env) i

theorem step_answered {s : State} (h : Inv s) : Answered (step s) := by
  have hcfg := h.config
  cases hs : s.env.schedule with
  | nil =>
    rw [step_unscheduled hcfg hs, unscheduledStep]
    split
    · exact runTaken_answered h _ (drawnPick s).env s.env
    · exact runTaken_answered h _ s.env s.env
  | cons turn rest =>
    cases turn with
    | worker pick => exact step_worker hcfg hs ▸ runTaken_answered h pick _ (s.setSchedule rest).env
    | rxFill bytes => exact step_rxFill hcfg hs ▸ .next _
    | txDrain => exact step_txDrain hcfg hs ▸ .next _
    | post e => exact step_post hcfg hs ▸ .next _

/-- Settles O50: under the invariant the data phase in progress stays inside the selected store, so a step stops
only by a refusal of the spec. -/
theorem noFaultFromAStateWithTheInvariant : Obligations.NoFaultFromAStateWithTheInvariant := by
  intro s h
  have hanswered := step_answered h
  generalize step s = o at hanswered ⊢
  cases hanswered <;> simp

end Sys2Proof.Machine
end

section
/-! PROOFS. Scope: the decoder and the encoder (R92, R93, R99 to R105, R111). The decoder is tied to a table of
rows, one for each opcode and each VPD page, and a canonical CBW to the header and the command block it is built
from. -/

namespace Sys2Proof

/-! ### Byte orders (R92, R100) -/

theorem toNat_append_byte {n : Nat} (x : BitVec n) (b : Byte) : (x ++ b).toNat = 2 ^ 8 * x.toNat + b.toNat := by
  rw [BitVec.toNat_append, ← Nat.shiftLeft_add_eq_or_of_lt b.isLt, Nat.shiftLeft_eq, Nat.mul_comm]

theorem toNat_unbe16 (b0 b1 : Byte) : (unbe16 b0 b1).toNat = 2 ^ 8 * b0.toNat + b1.toNat :=
  toNat_append_byte b0 b1

theorem toNat_unbe32 (b0 b1 b2 b3 : Byte) :
    (unbe32 b0 b1 b2 b3).toNat = 2 ^ 24 * b0.toNat + 2 ^ 16 * b1.toNat + 2 ^ 8 * b2.toNat + b3.toNat := by
  simp only [unbe32, toNat_append_byte]
  omega

theorem toNat_unle32 (b0 b1 b2 b3 : Byte) :
    (unle32 b0 b1 b2 b3).toNat = b0.toNat + 2 ^ 8 * b1.toNat + 2 ^ 16 * b2.toNat + 2 ^ 24 * b3.toNat := by
  have hbe : (unle32 b0 b1 b2 b3).toNat = _ := toNat_unbe32 b3 b2 b1 b0
  omega

theorem toNat_lowNibble (b : Byte) : (b.extractLsb' 0 4).toNat = b.toNat % 16 := by
  simp [BitVec.extractLsb'_toNat]

theorem lowNibble_setWidth (l : BitVec 4) : (l.setWidth 8).extractLsb' 0 4 = l := by
  apply BitVec.eq_of_toNat_eq
  rw [toNat_lowNibble, BitVec.toNat_setWidth]
  omega

/-- Four bytes in a row, read one at a time. -/
theorem take_four_drop (l : List Byte) (n : Nat) (h : n + 4 ≤ l.length) :
    (l.drop n).take 4 = [byteAt l n, byteAt l (n + 1), byteAt l (n + 2), byteAt l (n + 3)] := by
  induction n generalizing l with
  | zero =>
    match l, h with
    | _ :: _ :: _ :: _ :: _, _ => rfl
  | succ n ih =>
    cases l with
    | nil => simp at h
    | cons b l => exact ih l (by simpa [Nat.add_right_comm] using h)

/-! ### The command decoder as a table (R98, R99, R102) -/

/-- In a list whose keys are distinct, an entry is the one its key finds. -/
theorem lookup_of_mem {α β : Type} [BEq α] [LawfulBEq α] {l : List (α × β)} {k : α} {v : β}
    (hnd : (l.map Prod.fst).Nodup) (h : (k, v) ∈ l) : l.lookup k = some v := by
  obtain ⟨before, after, rfl⟩ := List.append_of_mem h
  rw [List.map_append, List.map_cons, List.nodup_middle, List.nodup_cons] at hnd
  obtain ⟨hfresh, -⟩ := hnd
  refine List.lookup_eq_some_iff.mpr ⟨before, after, rfl, fun p hp => bne_iff_ne.mpr ?_⟩
  exact fun he => hfresh (List.mem_append_left _ (List.mem_map.mpr ⟨p, hp, he.symm⟩))

theorem lookup_of_not_mem {α β : Type} [BEq α] [LawfulBEq α] {l : List (α × β)} {k : α}
    (h : k ∉ l.map Prod.fst) : l.lookup k = none :=
  List.lookup_eq_none_iff.mpr fun _ hp => bne_iff_ne.mpr fun he => h (he ▸ List.mem_map_of_mem hp)

/-- An entry of a table is one test of the decoder. -/
theorem getD_lookup_cons {α β : Type} [DecidableEq α] (a k : α) (v d : β) (l : List (α × β)) :
    (((k, v) :: l).lookup a).getD d = if a = k then v else (l.lookup a).getD d := by
  rw [List.lookup_cons]
  by_cases h : a = k
  · rw [if_pos h, beq_iff_eq.mpr h, Option.getD_some]
  · rw [if_neg h, beq_eq_false_iff_ne.mpr h]

/-- The command of each opcode, in the order of `Config.opcodes`. -/
def commandRows (c : Config) (h : CbwHeader) (cb : List Byte) : List (Byte × Instr) :=
  [(c.opcTur, .testUnitReady h), (c.opcReqSense, .requestSense h), (c.opcInquiry, decodeInquiry c h cb),
   (c.opcModeSense6, .modeSense6 h),
   (c.opcStartStop, .startStopUnit h ((byteAt cb 4).getLsbD 1) ((byteAt cb 4).getLsbD 0)),
   (c.opcPrevent, .preventAllow h), (c.opcRdFmtCap, .readFormatCapacity h), (c.opcRdCap, .readCapacity h),
   (c.opcRead10, .read10 h (decodeLba cb) (decodeCount cb)),
   (c.opcWrite10, .write10 h (decodeLba cb) (decodeCount cb)), (c.opcVerify, .verify h)]

theorem commandRows_keys (c : Config) (h : CbwHeader) (cb : List Byte) :
    (commandRows c h cb).map Prod.fst = c.opcodes := rfl

/-- R102: the decoder looks the opcode up, and answers UNKNOWN where it has no row. -/
theorem decodeCommand_eq_lookup (c : Config) (h : CbwHeader) (cb : List Byte) :
    decodeCommand c h cb = ((commandRows c h cb).lookup (byteAt cb 0)).getD (.unknown h (byteAt cb 0)) := by
  simp only [commandRows, getD_lookup_cons, List.lookup_nil, Option.getD_none]
  rfl

theorem decodeCommand_of_row {c : Config} {h : CbwHeader} {cb : List Byte} {i : Instr} (hnd : c.opcodes.Nodup)
    (hrow : (byteAt cb 0, i) ∈ commandRows c h cb) : decodeCommand c h cb = i := by
  rw [decodeCommand_eq_lookup, lookup_of_mem (commandRows_keys c h cb ▸ hnd) hrow, Option.getD_some]

theorem decodeCommand_of_not_mem {c : Config} {h : CbwHeader} {cb : List Byte} (hop : byteAt cb 0 ∉ c.opcodes) :
    decodeCommand c h cb = .unknown h (byteAt cb 0) := by
  rw [decodeCommand_eq_lookup, lookup_of_not_mem (commandRows_keys c h cb ▸ hop), Option.getD_none]

/-- The command of each supported VPD page, in the order of `Config.vpdPages`. -/
def vpdRows (c : Config) (h : CbwHeader) : List (Byte × Instr) :=
  [(c.vpdPageSupported, .inquiryVpdSupportedPages h), (c.vpdPageSerial, .inquiryVpdSerialNumber h),
   (c.vpdPageDevId, .inquiryVpdDeviceId h), (c.vpdPageBlkLim, .inquiryVpdBlockLimits h)]

theorem vpdRows_keys (c : Config) (h : CbwHeader) : (vpdRows c h).map Prod.fst = c.vpdPages := rfl

theorem decodeInquiry_std {c : Config} {h : CbwHeader} {cb : List Byte}
    (hevpd : (byteAt cb 1).getLsbD 0 = false) : decodeInquiry c h cb = .inquiryStd h := if_pos hevpd

/-- R99: with `evpd` set the decoder looks the page up. -/
theorem decodeInquiry_eq_lookup {c : Config} {h : CbwHeader} {cb : List Byte}
    (hevpd : (byteAt cb 1).getLsbD 0 = true) :
    decodeInquiry c h cb =
      ((vpdRows c h).lookup (byteAt cb 2)).getD (.inquiryVpdUnsupported h (byteAt cb 2)) := by
  simp only [vpdRows, getD_lookup_cons, List.lookup_nil, Option.getD_none]
  exact if_neg (by simp [hevpd])

theorem decodeInquiry_of_row {c : Config} {h : CbwHeader} {cb : List Byte} {i : Instr} (hnd : c.vpdPages.Nodup)
    (hevpd : (byteAt cb 1).getLsbD 0 = true) (hrow : (byteAt cb 2, i) ∈ vpdRows c h) :
    decodeInquiry c h cb = i := by
  rw [decodeInquiry_eq_lookup hevpd, lookup_of_mem (vpdRows_keys c h ▸ hnd) hrow, Option.getD_some]

theorem decodeInquiry_of_not_mem {c : Config} {h : CbwHeader} {cb : List Byte}
    (hevpd : (byteAt cb 1).getLsbD 0 = true) (hpage : byteAt cb 2 ∉ c.vpdPages) :
    decodeInquiry c h cb = .inquiryVpdUnsupported h (byteAt cb 2) := by
  rw [decodeInquiry_eq_lookup hevpd, lookup_of_not_mem (vpdRows_keys c h ▸ hpage), Option.getD_none]

/-! ### The CBW decoder (R92, R93, R104) -/

theorem decodeCbw_of_valid (c : Config) {b : List Byte} (hv : cbwValid b = true)
    (hlen : cbLengthOk (byteAt b 14) = true) : decodeCbw c b = .ok (decodeAcceptedCbw c b) := by
  rw [decodeCbw, if_pos hv, if_pos hlen]

/-- R104: a `cbLength` outside 1..16 has no meaning. -/
theorem decodeCbw_of_badCbLength (c : Config) {b : List Byte} (hv : cbwValid b = true)
    (hlen : cbLengthOk (byteAt b 14) = false) : decodeCbw c b = .error .badCbLength := by
  rw [decodeCbw, if_pos hv, if_neg (by simp [hlen])]

theorem header_decodeInquiry (c : Config) (h : CbwHeader) (cb : List Byte) :
    (decodeInquiry c h cb).header = some h := by
  simp only [decodeInquiry, apply_ite Instr.header]
  simp only [Instr.header, ite_self]

/-- Every row carries the header of its CBW. -/
theorem header_decodeCommand (c : Config) (h : CbwHeader) (cb : List Byte) :
    (decodeCommand c h cb).header = some h := by
  simp only [decodeCommand, apply_ite Instr.header, header_decodeInquiry]
  simp only [Instr.header, ite_self]

theorem header_of_decodeCbw {c : Config} {b : List Byte} {i : Instr} (h : decodeCbw c b = .ok i) :
    i.header = some (decodeHeader c b) :=
  Machine.eq_decodeAcceptedCbw h ▸ header_decodeCommand c _ _

/-- Settles O4: the header of the decoded row is that of the CBW, whose operands are read byte by byte. -/
theorem headerOperandsAreAssembledFromTheCbw : Obligations.HeaderOperandsAreAssembledFromTheCbw := by
  intro c cbw i h
  have hlen : cbw.length = 31 := Machine.length_of_decodeCbw h
  refine ⟨decodeHeader c cbw, header_of_decodeCbw h, ?_, toNat_unle32 _ _ _ _, ?_, toNat_lowNibble _⟩
  · exact (take_four_drop cbw 4 (by omega)).symm
  · simp [decodeHeader]

/-- Settles O5: with distinct opcodes the row of READ(10) or WRITE(10) is the one the opcode finds, and its
operands are big-endian. -/
theorem readAndWriteOperandsAreBigEndian : Obligations.ReadAndWriteOperandsAreBigEndian := by
  intro c cbw hnd hop
  have hop0 : byteAt (cbw.drop 15) 0 = byteAt cbw 15 := byteAt_drop cbw 15 0
  refine ⟨decodeLba (cbw.drop 15), decodeCount (cbw.drop 15), ?_, ?_, ?_⟩
  · simp only [decodeLba, toNat_unbe32, byteAt_drop]
  · simp only [decodeCount, toNat_unbe16, byteAt_drop]
  · split
    next hread => exact decodeCommand_of_row hnd (by simp [commandRows, hop0, hread])
    next hread =>
      have hwrite : byteAt cbw 15 = c.opcWrite10 := hop.resolve_left hread
      exact decodeCommand_of_row hnd (by simp [commandRows, hop0, hwrite])

/-! ### What the decoder does not read (R103) -/

theorem decodeInquiry_congr {c : Config} {h : CbwHeader} {x y : List Byte}
    (hevpd : (byteAt x 1).getLsbD 0 = (byteAt y 1).getLsbD 0)
    (hpage : (byteAt x 1).getLsbD 0 = true → byteAt x 2 = byteAt y 2) :
    decodeInquiry c h x = decodeInquiry c h y := by
  cases hx : (byteAt x 1).getLsbD 0 with
  | false => rw [decodeInquiry_std hx, decodeInquiry_std (hevpd ▸ hx)]
  | true => rw [decodeInquiry_eq_lookup hx, decodeInquiry_eq_lookup (hevpd ▸ hx), hpage hx]

/-- Two command blocks with one opcode carry the same command when the operands of its row agree. -/
theorem decodeCommand_congr {c : Config} {h : CbwHeader} {x y : List Byte} (hop : byteAt x 0 = byteAt y 0)
    (hinquiry : byteAt x 0 = c.opcInquiry → decodeInquiry c h x = decodeInquiry c h y)
    (hoptions : byteAt x 0 = c.opcStartStop →
      (byteAt x 4).getLsbD 0 = (byteAt y 4).getLsbD 0 ∧ (byteAt x 4).getLsbD 1 = (byteAt y 4).getLsbD 1)
    (hblocks : byteAt x 0 = c.opcRead10 ∨ byteAt x 0 = c.opcWrite10 →
      decodeLba x = decodeLba y ∧ decodeCount x = decodeCount y) :
    decodeCommand c h x = decodeCommand c h y := by
  simp only [decodeCommand, ← hop]
  refine ite_congr rfl (fun _ => rfl) fun _ => ite_congr rfl (fun _ => rfl) fun _ =>
    ite_congr rfl hinquiry fun _ => ite_congr rfl (fun _ => rfl) fun _ =>
    ite_congr rfl (fun hstart => ?_) fun _ => ite_congr rfl (fun _ => rfl) fun _ =>
    ite_congr rfl (fun _ => rfl) fun _ => ite_congr rfl (fun _ => rfl) fun _ =>
    ite_congr rfl (fun hread => ?_) fun _ => ite_congr rfl (fun hwrite => ?_) fun _ => rfl
  · obtain ⟨hbit0, hbit1⟩ := hoptions hstart
    rw [hbit0, hbit1]
  · obtain ⟨hlba, hcount⟩ := hblocks (.inl hread)
    rw [hlba, hcount]
  · obtain ⟨hlba, hcount⟩ := hblocks (.inr hwrite)
    rw [hlba, hcount]

theorem decodeHeader_congr (c : Config) {x y : List Byte}
    (hbytes : ∀ n, 4 ≤ n → n < 12 → byteAt x n = byteAt y n)
    (hflag : (byteAt x 12).getLsbD 7 = (byteAt y 12).getLsbD 7)
    (hlun : (byteAt x 13).extractLsb' 0 4 = (byteAt y 13).extractLsb' 0 4) :
    decodeHeader c x = decodeHeader c y := by
  simp only [decodeHeader, hflag, hlun, hbytes 4, hbytes 5, hbytes 6, hbytes 7, hbytes 8, hbytes 9, hbytes 10,
    hbytes 11, Nat.reduceLeDiff, Nat.reduceLT]

theorem decodeLba_congr {x y : List Byte} (h : ∀ n, 2 ≤ n → n < 6 → byteAt x n = byteAt y n) :
    decodeLba x = decodeLba y := by
  simp only [decodeLba, h 2, h 3, h 4, h 5, Nat.reduceLeDiff, Nat.reduceLT]

/-- Settles O3: the header and the operands of the row are all the decoder reads. -/
theorem ignoredCbwBitsDoNotChangeTheCommand : Obligations.IgnoredCbwBitsDoNotChangeTheCommand := by
  intro c x y hvx hvy hlx hly hbytes hflag hlun hop hinquiry hoptions hblocks
  rw [decodeCbw_of_valid c hvx hlx, decodeCbw_of_valid c hvy hly, decodeAcceptedCbw, decodeAcceptedCbw,
    decodeHeader_congr c hbytes hflag hlun]
  congr 1
  refine decodeCommand_congr ?_ ?_ ?_ ?_ <;> simp only [byteAt_drop]
  · exact hop
  · intro he
    obtain ⟨hevpd, hpage⟩ := hinquiry he
    exact decodeInquiry_congr (by simpa only [byteAt_drop] using hevpd) (by simpa only [byteAt_drop] using hpage)
  · exact hoptions
  · intro he
    obtain ⟨hlba, hcount0, hcount1⟩ := hblocks he
    refine ⟨decodeLba_congr fun n h2 h6 => ?_, by simp only [decodeCount, byteAt_drop, hcount0, hcount1]⟩
    rw [byteAt_drop, byteAt_drop, hlba (15 + n) (by omega) (by omega)]

/-! ### The SETUP decoder (R105) -/

/-- R105: the decoder answers one of the three requests. -/
theorem decodeSetup_cases {c : Config} {b : List Byte} {i : Instr} (h : decodeSetup c b = .ok i) :
    (∃ ep, i = .clearFeatureEndpointHalt ep) ∨ i = .getMaxLun ∨ i = .botReset := by
  unfold decodeSetup at h
  split at h
  next =>
    split at h
    next => cases h
    split at h
    next =>
      injection h with h
      exact .inl ⟨_, h.symm⟩
    split at h
    next =>
      injection h with h
      exact .inr (.inl h.symm)
    split at h
    next =>
      injection h with h
      exact .inr (.inr h.symm)
    next => cases h
  next => cases h

/-- Settles O2: a command is well formed by the tests the decoder made before its row, and the three requests
need none. -/
theorem decodedInstructionsAreWellFormed : Obligations.DecodedInstructionsAreWellFormed := by
  intro c f bytes i h
  cases f with
  | cbw => exact ⟨Machine.wellFormed_of_decodeCbw h, Machine.decodeCbw_format c bytes i h⟩
  | ctrl => rcases decodeSetup_cases h with ⟨ep, rfl⟩ | rfl | rfl <;> exact ⟨rfl, rfl⟩
  | csw => cases h
  | event => cases h

/-! ### Decoding the canonical encoding (R105, R111) -/

/-- The flags bit the encoder writes reads back as the direction, whatever the polarity (R92, log 15). -/
theorem dir_of_encoded_flags (p : Bool) (d : Dir) :
    (if (if decide (d = .dirIn) = p then 0x80 else 0x00 : Byte).getLsbD 7 = p then Dir.dirIn else .dirOut) =
      d := by
  cases p <;> cases d <;> rfl

theorem decodeHeader_encodeCbw (c : Config) (h : CbwHeader) (n : Byte) (cb : List Byte) :
    decodeHeader c (encodeCbw c h n cb) = h := by
  have hlen : unle32 (h.xferLen.extractLsb' 0 8) _ _ _ = h.xferLen := unle32_le32 h.xferLen
  have hdir := dir_of_encoded_flags c.dirInPolarity h.dir
  have hlun := lowNibble_setWidth h.lun
  obtain ⟨tag, xferLen, dir, lun⟩ := h
  simp only [decodeHeader, CbwHeader.mk.injEq]
  exact ⟨rfl, hlen, hdir, hlun⟩

theorem cbwValid_encodeCbw (c : Config) (h : CbwHeader) (n : Byte) {cb : List Byte} (hcb : cb.length = 16) :
    cbwValid (encodeCbw c h n cb) = true := by
  have hlen : (encodeCbw c h n cb).length = 31 := by simp [encodeCbw, cbwSignature, le32, hcb]
  have hsig : (encodeCbw c h n cb).take 4 = cbwSignature := rfl
  simp [cbwValid, hlen, hsig]

/-- A canonical CBW decodes to the command of its command block, with the header it was built from. -/
theorem decodeCbw_encodeCbw (c : Config) (h : CbwHeader) {n : Byte} {cb : List Byte} (hn : cbLengthOk n = true)
    (hcb : cb.length = 16) : decodeCbw c (encodeCbw c h n cb) = .ok (decodeCommand c h cb) := by
  have hblock : (encodeCbw c h n cb).drop 15 = cb := rfl
  rw [decodeCbw_of_valid c (cbwValid_encodeCbw c h n hcb) hn, decodeAcceptedCbw, decodeHeader_encodeCbw, hblock]

/-- The command block of a CDB6 command (R97). -/
def cdb6 (op option page byte4 : Byte) : List Byte :=
  [op, option, page, 0x00, byte4, 0x00] ++ List.replicate 10 0x00

@[simp] theorem byteAt_cdb6_option (op option page byte4 : Byte) :
    byteAt (cdb6 op option page byte4) 1 = option := rfl

@[simp] theorem byteAt_cdb6_byte4 (op option page byte4 : Byte) :
    byteAt (cdb6 op option page byte4) 4 = byte4 := rfl

/-- The command block of a CDB10 command (R97). -/
def cdb10 (op : Byte) (lba : Word) (len : BitVec 16) : List Byte :=
  [op, 0x00] ++ be32 lba ++ [0x00] ++ be16 len ++ [0x00] ++ List.replicate 6 0x00

theorem decodeCbw_encodeCdb6 (c : Config) (h : CbwHeader) (op option page byte4 : Byte) :
    decodeCbw c (encodeCdb6 c h op option page byte4) =
      .ok (decodeCommand c h (cdb6 op option page byte4)) :=
  decodeCbw_encodeCbw c h rfl rfl

theorem decodeCbw_encodeCdb10 (c : Config) (h : CbwHeader) (op : Byte) (lba : Word) (len : BitVec 16) :
    decodeCbw c (encodeCdb10 c h op lba len) = .ok (decodeCommand c h (cdb10 op lba len)) :=
  decodeCbw_encodeCbw c h rfl rfl

@[simp] theorem decodeLba_cdb10 (op : Byte) (lba : Word) (len : BitVec 16) :
    decodeLba (cdb10 op lba len) = lba := unbe32_be32 lba

@[simp] theorem decodeCount_cdb10 (op : Byte) (lba : Word) (len : BitVec 16) :
    decodeCount (cdb10 op lba len) = len := unbe16_be16 len

/-- The option byte of START STOP UNIT reads back as its two bits (R101). -/
theorem startStop_option_bits (loej start : Bool) :
    ((BitVec.ofBool loej ++ BitVec.ofBool start).setWidth 8).getLsbD 1 = loej ∧
      ((BitVec.ofBool loej ++ BitVec.ofBool start).setWidth 8).getLsbD 0 = start := by
  cases loej <;> cases start <;> decide

section rows

variable {c : Config} {h : CbwHeader} {i : Instr}

/-- With distinct opcodes a CDB6 command decodes to the row of its opcode (R102). -/
theorem decodeCbw_encodeCdb6_of_row {op option page byte4 : Byte} (hnd : c.opcodes.Nodup)
    (hrow : (op, i) ∈ commandRows c h (cdb6 op option page byte4)) :
    decodeCbw c (encodeCdb6 c h op option page byte4) = .ok i := by
  rw [decodeCbw_encodeCdb6, decodeCommand_of_row hnd hrow]

/-- With distinct opcodes a CDB10 command decodes to the row of its opcode (R102). -/
theorem decodeCbw_encodeCdb10_of_row {op : Byte} {lba : Word} {len : BitVec 16} (hnd : c.opcodes.Nodup)
    (hrow : (op, i) ∈ commandRows c h (cdb10 op lba len)) :
    decodeCbw c (encodeCdb10 c h op lba len) = .ok i := by
  rw [decodeCbw_encodeCdb10, decodeCommand_of_row hnd hrow]

/-- With distinct opcodes an INQUIRY is told by its `evpd` bit and its page alone (R99). -/
theorem decodeCbw_encode_inquiry (hnd : c.opcodes.Nodup) (option page byte4 : Byte) :
    decodeCbw c (encodeCdb6 c h c.opcInquiry option page byte4) =
      .ok (decodeInquiry c h (cdb6 c.opcInquiry option page byte4)) :=
  decodeCbw_encodeCdb6_of_row hnd (by simp [commandRows])

/-- With distinct codes a VPD INQUIRY decodes to the row of its page (R99). -/
theorem decodeCbw_encode_vpd {page byte4 : Byte} (hnd : c.opcodes.Nodup) (hpages : c.vpdPages.Nodup)
    (hrow : (page, i) ∈ vpdRows c h) : decodeCbw c (encodeCdb6 c h c.opcInquiry 1 page byte4) = .ok i := by
  rw [decodeCbw_encode_inquiry hnd, decodeInquiry_of_row hpages (by simp) hrow]

end rows

/-- A SCSI command decodes from its canonical CBW, operands and all. -/
theorem decodeCbw_encode {c : Config} {i : Instr} (hnd : c.opcodes.Nodup) (hpages : c.vpdPages.Nodup)
    (hwf : wellFormed c i = true) (hf : i.format = .cbw) : decodeCbw c (encode c i) = .ok i := by
  cases i with
  | testUnitReady h | requestSense h | modeSense6 h | preventAllow h =>
    exact decodeCbw_encodeCdb6_of_row hnd (by simp [commandRows])
  | startStopUnit h loej start =>
    obtain ⟨hloej, hstart⟩ := startStop_option_bits loej start
    exact decodeCbw_encodeCdb6_of_row hnd (by
      simp only [commandRows, byteAt_cdb6_byte4, hloej, hstart, List.mem_cons, true_or, or_true])
  | readFormatCapacity h | readCapacity h | read10 h lba count | write10 h lba count | verify h =>
    exact decodeCbw_encodeCdb10_of_row hnd (by simp [commandRows])
  | inquiryVpdSupportedPages h | inquiryVpdSerialNumber h | inquiryVpdDeviceId h | inquiryVpdBlockLimits h =>
    exact decodeCbw_encode_vpd hnd hpages (by simp [vpdRows])
  | inquiryVpdUnsupported h page =>
    have hpage : page ∉ c.vpdPages := by simpa [wellFormed] using hwf
    exact (decodeCbw_encode_inquiry hnd 1 page 0).trans (congrArg _ (decodeInquiry_of_not_mem (by simp) hpage))
  | inquiryStd h =>
    exact (decodeCbw_encode_inquiry hnd 0 0 _).trans (congrArg _ (decodeInquiry_std (by simp)))
  | unknown h opcode =>
    have hop : opcode ∉ c.opcodes := by simpa [wellFormed] using hwf
    exact (decodeCbw_encodeCdb6 c h opcode 0 0 0).trans (congrArg _ (decodeCommand_of_not_mem hop))
  | _ => cases hf

/-- The endpoint address of a SETUP packet reads back (log 10). -/
theorem endpointOfAddress_addressOfEndpoint (ep : Endpoint) : endpointOfAddress (addressOfEndpoint ep) = ep := by
  cases ep <;> rfl

/-- A control request decodes from its SETUP packet: the three differ in `bmRequestType` (R105). -/
theorem decodeSetup_encode {c : Config} {i : Instr} (hf : i.format = .ctrl) :
    decodeSetup c (encode c i) = .ok i := by
  cases i with
  | clearFeatureEndpointHalt ep => simp [encode, decodeSetup, endpointOfAddress_addressOfEndpoint]
  | getMaxLun => simp [encode, decodeSetup]
  | botReset => simp [encode, decodeSetup]
  | _ => cases hf

/-- Settles O1: by format; a command through its canonical CBW, a control request through its SETUP packet. -/
theorem decodingAnEncodingGivesTheInstructionBack : Obligations.DecodingAnEncodingGivesTheInstructionBack := by
  intro c i hc hwf hevent
  obtain ⟨hnd, hpages, -⟩ := hc
  cases hf : i.format with
  | cbw => exact decodeCbw_encode hnd hpages hwf hf
  | ctrl => exact decodeSetup_encode hf
  | csw => cases i <;> cases hf
  | event => exact absurd hf hevent

/-! ### The words of the opcode table (R112) -/

/-- Settles O6, by running the decoder on each word. -/
theorem opcodeTableWordsDecodeToTheirRows : Obligations.OpcodeTableWordsDecodeToTheirRows :=
  ⟨rfl, ⟨_, rfl⟩, ⟨_, rfl⟩, ⟨_, rfl⟩, ⟨_, rfl⟩, rfl, rfl, rfl⟩

end Sys2Proof
end

section
/-! PROOFS. Scope: the refusals of the spec (R6, R104, R253, R309, R336). -/

namespace Sys2Proof.Machine

/-- A valid CBW whose `cbLength` has no meaning is refused (R104, R151). -/
theorem parseCbw_refused {s : State} {b : Buffer} (hv : cbwValid b = true)
    (hlen : (byteAt b 14).toNat = 0 ∨ 16 < (byteAt b 14).toNat) :
    parseCbw b s = .refused .cbLengthOutOfRange := by
  have hbad : cbLengthOk (byteAt b 14) = false := by
    simp only [cbLengthOk, Bool.and_eq_false_iff, decide_eq_false_iff_not]
    omega
  simp only [parseCbw, decodeCbw_of_badCbLength s.cfg hv hbad]

/-- Payload beyond what remains is refused once its buffer is acquired (R253). -/
theorem receivePayload_overrun {s : State} {pos remaining : Nat} {b : Buffer} {q : List Buffer}
    (ha : s.nextAcquire = .buffer) (hq : s.rxq = b :: q) (hlen : remaining < b.length) :
    receivePayload pos remaining s = .refused .payloadOverrun := by
  simp only [receivePayload, pipeAcquireRx_buffer s b q ha hq, storePayload, if_pos hlen]

theorem exec_evMedia_absent {s : State} {l : Nat} (present : Bool) (hl : s.luns.length ≤ l) :
    exec (.evMedia l present) s = .refused .mediaLunOutOfRange :=
  (if_neg (Nat.not_lt.mpr hl) : execEvMedia l present s = _)

/-- The ranges of R6, spelt out. -/
theorem configInRange_iff (c : Config) :
    configInRange c = true ↔ 1 ≤ c.luns.length ∧ c.luns.length ≤ 16 ∧ 31 ≤ c.bufCap ∧
      ∀ l ∈ c.luns, 1 ≤ l.blockSize ∧ l.blockSize < 2 ^ 24 ∧ 1 ≤ l.blockCount ∧ l.blockCount < 2 ^ 32 := by
  simp only [configInRange, lunConfigInRange, Bool.and_eq_true, decide_eq_true_eq, List.all_eq_true, and_assoc]
  rfl

theorem step_configOutOfRange {s : State} (h : ¬ configInRange s.cfg = true) :
    step s = .refused .configOutOfRange := if_neg h

/-- Settles O36: each refusal at the operation that raises it. -/
theorem refusalsAreThoseTheSpecAsksFor : Obligations.RefusalsAreThoseTheSpecAsksFor := by
  intro s
  refine ⟨?_, ?_, ?_, fun l p hl => exec_evMedia_absent p hl, fun h => ?_⟩
  · intro b q hst hpe hw hq ha hv hlen
    rw [exec_rxReady_parse s b q hst hpe hw hq ha]
    exact parseCbw_refused hv hlen
  · intro i pos remaining b q hi hst hw hx hq ha hlen
    rw [exec_rxReady_payload i s pos remaining hi hst hw hx (by simp [hq])]
    exact receivePayload_overrun ha hq hlen
  · intro r hr
    rcases hr with ⟨ep, rfl⟩ | rfl | rfl | rfl <;> rfl
  · exact step_configOutOfRange (mt (configInRange_iff s.cfg).mp h)

end Sys2Proof.Machine
end

section
/-! PROOFS. Scope: the turns of the pipe engine, RxFill and TxDrain (R139 to R142). -/

namespace Sys2Proof.Machine

/-- `armed(RX)` spelt out (R140). -/
theorem armed_iff (s : State) :
    s.armed = true ↔ s.rxq = [] ∧ s.ctx.wedged = false ∧
      ((s.ctx.st = .cbwWait ∧ s.ctx.phaseError = false) ∨
        (s.ctx.st = .dispatched ∧ s.ctx.xfer.isWrite = true)) := by
  simp [State.armed, and_assoc]

/-- An enabled RxFill appends its buffer and the notification of it (R141). -/
theorem rxFill_enabled {s : State} {bytes : Buffer} (ha : s.armed = true) (hh : s.haltRx = false)
    (hpos : 1 ≤ bytes.length) (hcap : bytes.length ≤ s.cfg.bufCap) :
    rxFill bytes s = ({ s with rxq := s.rxq ++ [bytes] } : State).enqueue .rxReady :=
  if_pos (by simp only [ha, hh, hpos, hcap, decide_true, Bool.not_false, Bool.and_self])

/-- An RxFill that is not enabled has no effect (R139, R140). -/
theorem rxFill_not_enabled {s : State} {bytes : Buffer}
    (h : ¬ (s.armed = true ∧ s.haltRx = false ∧ 1 ≤ bytes.length ∧ bytes.length ≤ s.cfg.bufCap)) :
    rxFill bytes s = s :=
  if_neg (by simpa only [Bool.and_eq_true, Bool.not_eq_true', decide_eq_true_eq, and_assoc] using h)

/-- An enabled TxDrain delivers the head of `TX.q` and appends the notification of it (R142). -/
theorem txDrain_enabled {s : State} {b : Buffer} {q : List Buffer} (hq : s.txq = b :: q)
    (hh : s.haltTx = false) :
    txDrain s = ({ s with txq := q, hostRx := s.hostRx ++ [b] } : State).enqueue .txDrained := by
  simp [txDrain, hq, hh]

/-- A TxDrain that is not enabled has no effect (R139): the other case delivers the head of `TX.q`. -/
theorem txDrain_not_enabled {s : State} (h : s.txq = [] ∨ s.haltTx = true) : txDrain s = s := by
  rcases txDrain_cases s with hs | ⟨b, q, hq, hh, -⟩
  · exact hs
  · simp [hq, hh] at h

/-- Settles O11: by whether RX is armed, with an empty `RX.q`, and the buffer has a length it can have. -/
theorem rxFillAppendsABufferOnlyWhileRxIsArmed : Obligations.RxFillAppendsABufferOnlyWhileRxIsArmed := by
  intro s bytes rest hcfg hs
  rw [step_rxFill hcfg hs]
  split
  next hen =>
    obtain ⟨hempty, hw, hwait, hh, hpos, hcap⟩ := hen
    have ha : (s.setSchedule rest).armed = true := (armed_iff _).mpr ⟨hempty, hw, hwait⟩
    have hq : (s.setSchedule rest).rxq ++ [bytes] = [bytes] := by simp [hempty]
    rw [rxFill_enabled ha hh hpos hcap, hq]
    rfl
  next hen =>
    rw [rxFill_not_enabled]
    · rfl
    · rintro ⟨ha, hh, hpos, hcap⟩
      obtain ⟨hempty, hw, hwait⟩ := (armed_iff _).mp ha
      exact hen ⟨hempty, hw, hwait, hh, hpos, hcap⟩

/-- Settles O12: the enabled turn and the one that is not, each by its lemma. -/
theorem txDrainDeliversTheHeadBuffer : Obligations.TxDrainDeliversTheHeadBuffer := by
  intro s rest hcfg hs
  rw [step_txDrain hcfg hs]
  refine ⟨fun b q hq hh => ?_, fun h => ?_⟩
  · rw [txDrain_enabled (s := s.setSchedule rest) hq hh]
    rfl
  · rw [txDrain_not_enabled (s := s.setSchedule rest) h]
    rfl

end Sys2Proof.Machine
end

section
/-! PROOFS. Scope: the reception of a CBW (R79, R93, R150 to R154): a buffer accepted, a notification that is
stale or whose buffer is lost, and the phase error of a buffer that is no CBW. -/

namespace Sys2Proof.Machine

/-! ### A CBW accepted (R151, R152, R79) -/

/-- Every SCSI command answers a next state; its failures are next states too (R177, R358). -/
theorem exec_command_next {i : Instr} {h : CbwHeader} (hi : i.header = some h) (s : State) :
    ∃ t, exec i s = .next t := by
  cases i <;> try (cases hi; done)
  all_goals exact ⟨_, rfl⟩

/-- The accepted state: the copy of R26, busy with its link-power action, `DISPATCHED` (R152). -/
theorem acceptCbw_eq (copy : List Byte) (s : State) :
    acceptCbw copy s =
      { s with ctx := { s.ctx with cbw := copy, busy := true, st := .dispatched }
               trace := s.trace ++ [.lpmAllow false] } :=
  rfl

/-- An acquired buffer that decodes runs its command on the accepted state (R151, R152). -/
theorem exec_evRxReady_accepted {s : State} {b : Buffer} {q : List Buffer} {i : Instr}
    (hst : s.ctx.st = .cbwWait) (hpe : s.ctx.phaseError = false) (hw : s.ctx.wedged = false)
    (hq : s.rxq = b :: q) (ha : s.nextAcquire = .buffer) (hd : decodeCbw s.cfg b = .ok i) :
    exec .evRxReady s = exec i
      { s with
        ctx := { s.ctx with cbw := b, busy := true, st := .dispatched }
        rxq := q
        trace := s.trace ++ [.pipeDiscard, .lpmAllow false]
        env := s.env.drawn 1 0 1 } := by
  calc exec .evRxReady s
      = parseCbw b { s with rxq := q, env := s.env.drawn 1 0 1, trace := s.trace ++ [.pipeDiscard] } :=
        exec_rxReady_parse s b q hst hpe hw hq ha
    _ = exec i (acceptCbw b _) := parseCbw_accepted hd
    _ = _ := by simp only [acceptCbw_eq, List.append_assoc, List.cons_append, List.nil_append]

/-- Settles O32: the command answers a next state, and its frame keeps what acceptance wrote. -/
theorem receivedCommandIsAcceptedAndDispatched : Obligations.ReceivedCommandIsAcceptedAndDispatched := by
  intro s b q i hst hpe hw hq ha hd
  have hrun := exec_evRxReady_accepted hst hpe hw hq ha hd
  have hi := header_of_decodeCbw hd
  obtain ⟨t, ht⟩ : ∃ t, exec .evRxReady s = .next t := hrun ▸ exec_command_next hi _
  have hcmd := hrun.symm.trans ht
  have hframe := command_frame i _ t _ hi hcmd
  refine ⟨t, ht, ?_, ?_, ?_, hframe.rxq, hframe.trace, hcmd⟩
  all_goals
    rw [hframe.ctx]
    rfl

/-! ### Notifications that are stale, and buffers that are lost (R150, R151, U3) -/

/-- A notification changes nothing when there is no buffer, or the worker does not wait for one (R150 cases 1, 2
and 5). -/
theorem exec_evRxReady_stale {s : State} (h : s.rxq = [] ∨ ¬ waitsForRx s) : exec .evRxReady s = .next s := by
  have e : exec .evRxReady s = execEvRxReady s := rfl
  rw [e]
  unfold execEvRxReady
  split
  next => rfl
  next hopen =>
    simp only [Bool.or_eq_true, List.isEmpty_iff, not_or, Bool.not_eq_true] at hopen
    obtain ⟨hq, hw⟩ := hopen
    have hno : ¬ waitsForRx s := h.resolve_left hq
    split
    next hwait =>
      simp only [Bool.and_eq_true, decide_eq_true_eq, Bool.not_eq_true'] at hwait
      exact absurd ⟨hw, .inl hwait⟩ hno
    split
    next hst =>
      cases hx : s.ctx.xfer with
      | wr pos remaining => exact absurd ⟨hw, .inr ⟨hst, by rw [hx]; rfl⟩⟩ hno
      | _ => rfl
    next => rfl

/-- EV_RX_READY.DATA is stale in the same cases: while a command runs it is the other row, and else it changes
nothing (R112, R150). -/
theorem exec_evRxReadyData_stale {s : State} (h : s.rxq = [] ∨ ¬ waitsForRx s) :
    exec .evRxReadyData s = .next s := by
  by_cases hst : s.ctx.st = .dispatched
  · rw [exec_evRxReadyData_dispatched hst, exec_evRxReady_stale h]
  · exact exec_evRxReadyData_idle hst

/-- A stuck block waits for no buffer (R140, R285). -/
theorem not_waitsForRx_of_wedged {s : State} (hw : s.ctx.wedged = true) : ¬ waitsForRx s :=
  fun ⟨hno, _⟩ => by simp [hw] at hno

/-- The states in which no buffer is waited for, as R150 lists them. -/
theorem not_waitsForRx {s : State} (h : s.ctx.wedged = true ∨ s.ctx.st = .inactive ∨ s.ctx.st = .status ∨
    (s.ctx.st = .cbwWait ∧ s.ctx.phaseError = true) ∨ (s.ctx.st = .dispatched ∧ s.ctx.xfer.isWrite = false)) :
    ¬ waitsForRx s := by
  rcases h with hw | hst | hst | ⟨hst, hpe⟩ | ⟨hst, hx⟩
  · exact not_waitsForRx_of_wedged hw
  · simp [waitsForRx, hst]
  · simp [waitsForRx, hst]
  · simp [waitsForRx, hst, hpe]
  · simp [waitsForRx, hst, hx]

/-- In `CBW_WAIT` an announced buffer is received as a CBW (R150 case 3). -/
theorem exec_evRxReady_receives {s : State} (hq : s.rxq ≠ []) (hw : s.ctx.wedged = false)
    (hst : s.ctx.st = .cbwWait) (hpe : s.ctx.phaseError = false) : exec .evRxReady s = receiveCbw s := by
  have e : exec .evRxReady s = execEvRxReady s := rfl
  simp [e, execEvRxReady, hq, hw, hst, hpe]

/-- A failed acquire loses the announced buffer and changes nothing else (R131, R151). -/
theorem receiveCbw_lost {s : State} (ha : s.nextAcquire ≠ .buffer) :
    receiveCbw s = .next { s with rxq := s.rxq.tail, env := s.env.drawn 1 0 1 } := by
  rw [receiveCbw, pipeAcquireRx_lost s ha]

/-- Settles O33: a stale notification is one the worker does not wait for, under either row; a lost buffer is
one whose acquire failed. -/
theorem staleAndLostNotificationsChangeNothingElse : Obligations.StaleAndLostNotificationsChangeNothingElse := by
  intro s
  refine ⟨fun h => exec_evRxReady_stale (h.imp_right not_waitsForRx), fun hq hw hst hpe ha => ?_,
    fun h => exec_evRxReadyData_stale (h.imp_right not_waitsForRx_of_wedged)⟩
  rw [exec_evRxReady_receives hq hw hst hpe, receiveCbw_lost ha]

/-! ### A buffer that is no CBW (R93, R154, R359) -/

/-- The framing of R93, spelt out. -/
theorem cbwValid_iff (b : List Byte) : cbwValid b = true ↔ b.length = 31 ∧ b.take 4 = [0x55, 0x53, 0x42, 0x43] := by
  simp only [cbwValid, Bool.and_eq_true, decide_eq_true_iff]
  rfl

/-- A buffer without the framing of a CBW is a phase error (R93, R151). -/
theorem parseCbw_invalid {s : State} {b : Buffer} (hv : ¬ cbwValid b = true) :
    parseCbw b s = .next (raisePhaseError s) := by
  have hd : decodeCbw s.cfg b = .error .badFraming := if_neg hv
  simp only [parseCbw, hd]

/-- A message is queued when a buffer is acquired and the commit succeeds (R131, R132). -/
theorem queueTx_queued (bytes : Buffer) {s : State} (ha : s.nextAcquire = .buffer) (hc : s.commitAfter 1 = .ok) :
    queueTx bytes s =
      (true, { s with txq := s.txq ++ [bytes], trace := s.trace ++ [.pipeCommit bytes]
                      env := s.env.drawn 1 1 2 }) := by
  rcases queueTx_cases bytes s with ⟨-, -, e⟩ | ⟨hno, -⟩ | ⟨-, hfail, -⟩
  · rw [e, drawnAcquire_eq, drawnCommit_eq, Env.drawn_drawn]
  · exact absurd ha hno
  · rw [nextCommit_drawnAcquire, hc] at hfail
    cases hfail

/-- The phase-error entry that queues its CSW; the draw of the tag comes before the two of the pipe (R154). -/
theorem raisePhaseError_queued {s : State} (ha : s.acquireAfter 0 1 = .buffer) (hc : s.commitAfter 2 = .ok) :
    raisePhaseError s =
      { s with
        ctx := { s.ctx with phaseError := true, status := .phaseError, st := .status }
        txq := s.txq ++ [cswBytes (Config.freeTag s.env.draws) 0 .phaseError]
        trace := s.trace ++ [.pipeCommit (cswBytes (Config.freeTag s.env.draws) 0 .phaseError)]
        env := s.env.drawn 1 1 3 } := by
  have hqueue := queueTx_queued (cswBytes (Config.freeTag s.env.draws) 0 .phaseError)
    (s := { s with ctx := phaseErrorCtx s, env := s.env.drawn 0 0 1 }) ha hc
  simp only [phaseErrorCtx] at hqueue
  simp only [raisePhaseError, drawnTag_eq, hqueue, State.setSt, Env.drawn_drawn]

/-- The 13 bytes of the CSW of a phase error: residue 0 and status 2 (R94, R154). -/
theorem cswBytes_phaseError (tag : Tag) :
    cswBytes tag 0 .phaseError =
      [0x55, 0x53, 0x42, 0x53, tag.t0, tag.t1, tag.t2, tag.t3, 0x00, 0x00, 0x00, 0x00, 0x02] :=
  rfl

/-- Settles O34: the buffer is no valid CBW, and the entry it leads to queues its CSW. -/
theorem invalidCbwEntersThePhaseError : Obligations.InvalidCbwEntersThePhaseError := by
  intro s b q hst hpe hw hq ha hframing hacquire hcommit
  have hv : ¬ cbwValid b = true := mt (cbwValid_iff b).mp hframing
  refine ⟨_, _, _, _, _, cswBytes_phaseError (Config.freeTag (s.env.drawn 1 0 1).draws), ?_⟩
  rw [exec_rxReady_parse s b q hst hpe hw hq ha, parseCbw_invalid hv, raisePhaseError_queued hacquire hcommit]
  simp only [List.append_assoc, List.cons_append, List.nil_append, Env.drawn_drawn]

end Sys2Proof.Machine
end

section
/-! PROOFS. Scope: the dispatcher's tests over all the commands at once (R170 to R178). Every command is one of
two forms, recognised with the policy of its row in R109 or rejected at recognition. -/

namespace Sys2Proof.Machine

/-! ### The two forms of a command (R109, R173) -/

/-- Every SCSI command runs under the policy of its row, or has none and is rejected at recognition. -/
theorem exec_command_form {i : Instr} {h : CbwHeader} (hi : i.header = some h) (s : State) :
    (∃ p handler, (∀ u, commandPolicy s.cfg u i = some (p u)) ∧
      exec i s = .next (runCommand h p handler s)) ∨
    (∃ x, (∀ u, commandPolicy s.cfg u i = none) ∧ exec i s = .next (rejectCommand h x s)) := by
  cases i <;> try (cases hi; done)
  all_goals
    injection hi with hi
    subst hi
  case unknown => exact .inr ⟨_, fun _ => rfl, rfl⟩
  case inquiryVpdUnsupported => exact .inr ⟨_, fun _ => rfl, rfl⟩
  all_goals exact .inl ⟨_, _, fun _ => rfl, rfl⟩

/-- A command that has a policy runs under it on its LUN. -/
theorem exec_eq_runCommand {i : Instr} {h : CbwHeader} {s : State} {u : Lun} {p : Policy} (hi : i.header = some h)
    (hp : commandPolicy s.cfg u i = some p) :
    ∃ policy handler, policy u = p ∧ exec i s = .next (runCommand h policy handler s) := by
  rcases exec_command_form hi s with ⟨policy, handler, hpolicy, e⟩ | ⟨x, hnone, -⟩
  · exact ⟨policy, handler, Option.some.inj ((hpolicy u).symm.trans hp), e⟩
  · rw [hnone u] at hp
    cases hp

theorem rejectCommand_absent {h : CbwHeader} {x : Sense} {s : State} (hu : s.luns[h.lun.toNat]? = none) :
    rejectCommand h x s = s.withCommand h h.xferLen .failed .none := by
  rcases rejectCommand_cases h x s with ⟨-, e⟩ | ⟨u, hu', -⟩
  · rw [e, commandFail_loaded_absent _ _ _ hu]
  · rw [hu] at hu'
    cases hu'

theorem rejectCommand_present {h : CbwHeader} {x : Sense} {s : State} {u : Lun}
    (hu : s.luns[h.lun.toNat]? = some u) :
    rejectCommand h x s =
      (s.withCommand h h.xferLen .failed .none).withLun h.lun.toNat { u with lastSense := x } := by
  rcases rejectCommand_cases h x s with ⟨hnone, -⟩ | ⟨-, -, e⟩
  · rw [hu] at hnone
    cases hnone
  · rw [e, commandFail_loaded _ _ _ _ hu]

/-! ### The tests, in their order (R172 to R176) -/

/-- Settles O17: both forms of a command test the LUN before anything else. -/
theorem commandOnAbsentLunFails : Obligations.CommandOnAbsentLunFails := by
  intro i h s hi hu
  rcases exec_command_form hi s with ⟨p, handler, -, e⟩ | ⟨x, -, e⟩
  · rw [e, runCommand_absent h p handler s hu]
  · rw [e, rejectCommand_absent hu]

/-- Settles O18: both rows reject the command with their sense. -/
theorem unrecognisedCommandsFailAtRecognition : Obligations.UnrecognisedCommandsFailAtRecognition := by
  intro h x s u hu
  have hunknown : exec (.unknown h x) s = .next (rejectCommand h .invalidOpCode s) := rfl
  have hpage : exec (.inquiryVpdUnsupported h x) s = .next (rejectCommand h .invalidFieldInCbw s) := rfl
  rw [hunknown, hpage, rejectCommand_present hu, rejectCommand_present hu]
  exact ⟨rfl, rfl⟩

/-- Settles O19: the command runs under its policy, whose test of length and direction fails. -/
theorem lengthOrDirectionMismatchFails : Obligations.LengthOrDirectionMismatchFails := by
  intro i h s u p hi hu hp hno
  obtain ⟨policy, handler, rfl, e⟩ := exec_eq_runCommand hi hp
  rw [e, runCommand_mismatch h policy handler s u hu hno]

/-- Settles O20: the command runs under its policy, whose test of the unit fails. -/
theorem notReadyUnitFailsTheCommand : Obligations.NotReadyUnitFailsTheCommand := by
  intro i h s u p hi hu hp ha hno
  obtain ⟨policy, handler, rfl, e⟩ := exec_eq_runCommand hi hp
  rw [e, runCommand_notReady h policy handler s u hu ha hno]
  rfl

/-! ### What a failure leaves (R178, R358) -/

/-- Recording a sense changes at most the sense of each record. -/
theorem recordSense_getElem? (n : Nat) (x : Sense) (s : State) (l : Nat) :
    ∃ y : Sense, (recordSense n x s).luns[l]? = (s.luns[l]?).map fun u => { u with lastSense := y } := by
  rw [recordSense_luns, List.getElem?_modify]
  by_cases hl : n = l
  · exact ⟨x, by simp [hl]⟩
  · cases s.luns[l]? with
    | none => exact ⟨x, rfl⟩
    | some u => exact ⟨u.lastSense, by simp [hl]⟩

/-- A command succeeds, or has failed with no data phase and no change to a record but its sense. -/
theorem CommandOutcome.ok_or_failed {h : CbwHeader} {i : Instr} {s t : State} (ho : CommandOutcome h s i t) :
    t.ctx.status = .ok ∨
      (t.ctx.status = .failed ∧ t.ctx.xfer = .none ∧
        ∀ l : Nat, ∃ x : Sense, t.luns[l]? = (s.luns[l]?).map fun u : Lun => { u with lastSense := x }) := by
  cases ho with
  | failed x => exact .inr ⟨rfl, rfl, recordSense_getElem? _ x _⟩
  | passed => exact .inl rfl
  | unitSwitched => exact .inl rfl
  | senseReported => exact .inl rfl

/-- Settles O28: the command's frame keeps the fields, its outcome gives the status. -/
theorem everyCommandCompletesAndFailuresArePrecise : Obligations.EveryCommandCompletesAndFailuresArePrecise := by
  intro i h s hi
  obtain ⟨t, ht⟩ := exec_command_next hi s
  have hf := command_frame i s t h hi ht
  refine ⟨t, ht, ?_, ?_, ?_, ?_, ?_, ?_, hf.rxq, hf.txq, hf.trace, (exec_command_outcome hi ht).ok_or_failed⟩
  all_goals
    rw [hf.ctx]
    rfl

end Sys2Proof.Machine
end

section
/-! PROOFS. Scope: the data steps (R181, R183): one chunk committed, one that fails, and a whole device→host
data phase. -/

namespace Sys2Proof.Machine

/-! ### One step (R181) -/

theorem exec_dataStepTx_resp {s : State} {bytes : List Byte} {pos remaining : Nat} (hst : s.ctx.st = .dispatched)
    (hx : s.ctx.xfer = .resp bytes pos remaining) :
    exec .dataStepTx s = sendChunk (min s.cfg.bufCap remaining)
      (some ((bytes.drop pos).take (min s.cfg.bufCap remaining))) s := by
  have e : exec .dataStepTx s = execDataStepTx s := rfl
  simp only [e, execDataStepTx, if_pos hst, hx]

theorem exec_dataStepTx_rd {s : State} {u : Lun} {pos remaining : Nat} (hst : s.ctx.st = .dispatched)
    (hx : s.ctx.xfer = .rd pos remaining) (hu : s.luns[s.ctx.lunSel.toNat]? = some u)
    (hin : pos + min s.cfg.bufCap remaining ≤ u.blockSize * u.blockCount) :
    exec .dataStepTx s = sendChunk (min s.cfg.bufCap remaining)
      (some (u.store.readRange pos (min s.cfg.bufCap remaining))) s := by
  have e : exec .dataStepTx s = execDataStepTx s := rfl
  simp only [e, execDataStepTx, if_pos hst, hx, memRead_inside s _ _ _ u hu hin]

/-- A chunk that agrees with the selected store address by address is what the store reads as. -/
theorem eq_readRange_of_storeByte {s : State} {l pos n : Nat} {u : Lun} {chunk : List Byte}
    (hu : s.luns[l]? = some u) (hlen : chunk.length = n)
    (hbytes : ∀ k, k < n → chunk[k]? = s.storeByte l (pos + k)) : chunk = u.store.readRange pos n := by
  subst hlen
  refine Memory.eq_readRange _ _ _ fun k hk => ?_
  rw [hbytes k hk, State.storeByte, hu]
  rfl

/-- Settles O29: either kind of step sends its chunk, and the descriptor advances by it. -/
theorem dataStepCommitsTheNextChunk : Obligations.DataStepCommitsTheNextChunk := by
  intro s pos remaining n hst ha hc hn
  subst hn
  refine ⟨fun bytes chunk hx hchunk => ?_, fun u chunk hx hu hin hlen hbytes => ?_⟩
  · rw [exec_dataStepTx_resp hst hx, ← hchunk, sendChunk_sent _ chunk s ha hc]
    simp only [advanceXfer, hx, Xfer.advance]
  · rw [exec_dataStepTx_rd hst hx hu hin, ← eq_readRange_of_storeByte hu hlen hbytes, sendChunk_sent _ chunk s ha hc]
    simp only [advanceXfer, hx, Xfer.advance]

/-! ### A step that fails (R131, R132, R183) -/

/-- A device→host step fails when its acquire does, whatever it was to send. -/
theorem exec_dataStepTx_acquire_failed {s : State} (hst : s.ctx.st = .dispatched) (hx : s.ctx.xfer ≠ .none)
    (hwr : s.ctx.xfer.isWrite = false) (ha : s.nextAcquire ≠ .buffer) :
    exec .dataStepTx s = .next (xferFail { s with env := s.env.drawn 1 0 1 }) := by
  obtain ⟨n, chunk, e⟩ := exec_dataStepTx_sends hst hx hwr
  rw [e, sendChunk_acquire_failed n chunk s ha]

/-- A payload notification fails when its acquire does; the announced buffer is lost (R131). -/
theorem receivePayload_lost (pos remaining : Nat) {s : State} (ha : s.nextAcquire ≠ .buffer) :
    receivePayload pos remaining s =
      .next (xferFail { s with rxq := s.rxq.tail, env := s.env.drawn 1 0 1 }) := by
  rw [receivePayload, pipeAcquireRx_lost s ha]

/-- Settles O31: each failure is `XferFail` on the selected LUN. -/
theorem pipeFailureInADataPhaseFailsTheCommand : Obligations.PipeFailureInADataPhaseFailsTheCommand := by
  intro s u hst hu
  refine ⟨fun hx ha => ?_, fun hx ha hc => ?_, fun i hi hx hw hq ha => ?_⟩
  · obtain ⟨hsome, hwr⟩ : s.ctx.xfer ≠ .none ∧ s.ctx.xfer.isWrite = false := by
      rcases hx with ⟨bytes, pos, n, hx⟩ | ⟨pos, n, hx⟩ <;> simp [hx, Xfer.isWrite]
    rw [exec_dataStepTx_acquire_failed hst hsome hwr ha]
    exact congrArg Host.Outcome.next (xferFail_eq { s with env := s.env.drawn 1 0 1 } u hu)
  · have hfail : exec .dataStepTx s = .next (xferFail { s with env := s.env.drawn 1 1 2 }) := by
      rcases hx with ⟨bytes, pos, n, hx⟩ | ⟨pos, n, hx, hin⟩
      · rw [exec_dataStepTx_resp hst hx, sendChunk_commit_failed _ _ s ha hc]
      · rw [exec_dataStepTx_rd hst hx hu hin, sendChunk_commit_failed _ _ s ha hc]
    rw [hfail]
    exact congrArg Host.Outcome.next (xferFail_eq { s with env := s.env.drawn 1 1 2 } u hu)
  · obtain ⟨pos, n, hx⟩ := hx
    rw [exec_rxReady_payload i s pos n hi hst hw hx hq, receivePayload_lost pos n ha]
    exact congrArg Host.Outcome.next
      (xferFail_eq { s with rxq := s.rxq.tail, env := s.env.drawn 1 0 1 } u hu)

/-! ### Splitting a byte string into buffers (R181) -/

/-- `k` buffers of `cap` bytes hold `n` bytes, and one buffer fewer does not. -/
def Fills (cap k n : Nat) : Prop := n ≤ k * cap ∧ k * cap < n + cap

theorem fills_ceil (n : Nat) {cap : Nat} (hcap : 1 ≤ cap) : Fills cap ((n + cap - 1) / cap) n := by
  have hle := Nat.div_mul_le_self (n + cap - 1) cap
  have hlt := Nat.lt_div_mul_add (a := n + cap - 1) hcap
  exact ⟨by omega, by omega⟩

theorem Fills.eq_zero {cap n : Nat} (hf : Fills cap 0 n) : n = 0 := by
  simpa using hf.1

/-- After the first buffer the others hold the rest. -/
theorem Fills.succ {cap k n : Nat} (hf : Fills cap (k + 1) n) : 0 < n ∧ Fills cap k (n - cap) := by
  obtain ⟨hle, hlt⟩ := hf
  rw [Nat.succ_mul] at hle hlt
  exact ⟨by omega, by omega, by omega⟩

/-- The first `k` buffers of `data`, each of up to `cap` bytes. -/
def buffersOf (cap : Nat) : Nat → List Byte → List Buffer
  | 0, _ => []
  | k + 1, data => data.take cap :: buffersOf cap k (data.drop cap)

theorem buffersOf_length (cap k : Nat) (data : List Byte) : (buffersOf cap k data).length = k := by
  induction k generalizing data with
  | zero => rfl
  | succ k ih => simp [buffersOf, ih]

theorem buffersOf_flatten {cap k : Nat} {data : List Byte} (hf : Fills cap k data.length) :
    (buffersOf cap k data).flatten = data := by
  induction k generalizing data with
  | zero => simpa [buffersOf] using (List.eq_nil_of_length_eq_zero hf.eq_zero).symm
  | succ k ih =>
    have hrest : Fills cap k (data.drop cap).length := by simpa using hf.succ.2
    rw [buffersOf, List.flatten_cons, ih hrest, List.take_append_drop]

theorem buffersOf_fit {cap k : Nat} {data : List Byte} (hcap : 1 ≤ cap) (hf : Fills cap k data.length) :
    BuffersFit cap (buffersOf cap k data) := by
  induction k generalizing data with
  | zero => exact BuffersFit.nil cap
  | succ k ih =>
    have hpos := hf.succ.1
    have hrest : Fills cap k (data.drop cap).length := by simpa using hf.succ.2
    refine List.forall_mem_cons.mpr ⟨?_, ih hrest⟩
    rw [List.length_take]
    omega

/-- Only the last buffer can be short. -/
theorem buffersOf_full {cap k : Nat} {data : List Byte} (hf : Fills cap k data.length) :
    ∀ b ∈ (buffersOf cap k data).dropLast, b.length = cap := by
  induction k generalizing data with
  | zero => simp [buffersOf]
  | succ k ih =>
    have hrest : Fills cap k (data.drop cap).length := by simpa using hf.succ.2
    cases k with
    | zero => simp [buffersOf]
    | succ k =>
      have hmore : 0 < (data.drop cap).length := hrest.succ.1
      refine List.forall_mem_cons.mpr ⟨?_, ih hrest⟩
      rw [List.length_drop] at hmore
      rw [List.length_take]
      omega

/-! ### A whole device→host data phase (R180, R181, R250) -/

/-- The bytes a device→host data phase has still to send, of the response or of the selected store; none when
no data phase is under way. -/
def ToSend (s : State) (data : List Byte) : Prop :=
  match s.ctx.xfer with
  | .none => data = []
  | .resp bytes pos remaining =>
    1 ≤ remaining ∧ pos + remaining ≤ bytes.length ∧ data = (bytes.drop pos).take remaining
  | .rd pos remaining =>
    1 ≤ remaining ∧ ∃ u, s.luns[s.ctx.lunSel.toNat]? = some u ∧ pos + remaining ≤ u.blockSize * u.blockCount ∧
      data = u.store.readRange pos remaining
  | .wr _ _ => False

theorem Memory.readRange_take (m : Memory) (a n k : Nat) :
    (m.readRange a n).take k = m.readRange a (min k n) := by
  rcases Nat.le_total k n with hk | hk
  · obtain ⟨j, rfl⟩ := Nat.exists_eq_add_of_le hk
    rw [Nat.min_eq_left hk, Memory.readRange_append, List.take_left' (m.readRange_length a k)]
  · rw [Nat.min_eq_right hk, List.take_of_length_le (by simpa using hk)]

theorem Memory.readRange_drop (m : Memory) (a : Nat) {n k : Nat} (hk : k ≤ n) :
    (m.readRange a n).drop k = m.readRange (a + k) (n - k) := by
  obtain ⟨j, rfl⟩ := Nat.exists_eq_add_of_le hk
  rw [Memory.readRange_append, List.drop_left' (m.readRange_length a k), Nat.add_sub_cancel_left]

section phase

variable {s : State} {data : List Byte}

/-- A data step sends the first `BUF_CAP` bytes of those to send (R181). -/
theorem ToSend.exec_dataStepTx (hsend : ToSend s data) (hne : 0 < data.length) (hst : s.ctx.st = .dispatched) :
    exec .dataStepTx s = sendChunk (min s.cfg.bufCap data.length) (some (data.take s.cfg.bufCap)) s := by
  cases hx : s.ctx.xfer with
  | none =>
    simp only [ToSend, hx] at hsend
    simp [hsend] at hne
  | resp bytes pos remaining =>
    simp only [ToSend, hx] at hsend
    obtain ⟨-, hend, rfl⟩ := hsend
    have hlen : ((bytes.drop pos).take remaining).length = remaining := by
      rw [List.length_take, List.length_drop]
      omega
    rw [exec_dataStepTx_resp hst hx, hlen, List.take_take]
  | rd pos remaining =>
    simp only [ToSend, hx] at hsend
    obtain ⟨-, u, hu, hin, rfl⟩ := hsend
    rw [exec_dataStepTx_rd hst hx hu (by omega), Memory.readRange_length, Memory.readRange_take]
  | wr pos remaining =>
    simp only [ToSend, hx] at hsend

/-- Counting a chunk leaves the rest to send (R181). -/
theorem ToSend.advanceXfer (hsend : ToSend s data) {n : Nat} (hn : n ≤ data.length) :
    ToSend (advanceXfer n s) (data.drop n) := by
  cases hx : s.ctx.xfer with
  | none =>
    simp only [ToSend, hx] at hsend
    simp [ToSend, hx, Xfer.advance, hsend]
  | resp bytes pos remaining =>
    simp only [ToSend, hx] at hsend
    obtain ⟨-, hend, rfl⟩ := hsend
    by_cases hz : remaining - n = 0
    · simp only [ToSend, advanceXfer_ctx, hx, Xfer.advance, hz, if_true]
      exact List.drop_of_length_le ((List.length_take_le _ _).trans (Nat.sub_eq_zero_iff_le.mp hz))
    · have hrest : ((bytes.drop pos).take remaining).drop n = (bytes.drop (pos + n)).take (remaining - n) := by
        rw [List.drop_take, List.drop_drop]
      simp only [ToSend, advanceXfer_ctx, hx, Xfer.advance, hz, if_false]
      exact ⟨by omega, by omega, hrest⟩
  | rd pos remaining =>
    simp only [ToSend, hx] at hsend
    obtain ⟨-, u, hu, hin, rfl⟩ := hsend
    rw [Memory.readRange_length] at hn
    rw [Memory.readRange_drop _ _ hn]
    by_cases hz : remaining - n = 0
    · simp [ToSend, hx, Xfer.advance, hz, Memory.readRange]
    · simp only [ToSend, advanceXfer_ctx, hx, Xfer.advance, hz, if_false]
      exact ⟨by omega, u, hu, by omega, rfl⟩
  | wr pos remaining =>
    simp only [ToSend, hx] at hsend

/-- A data phase with nothing to send is over (R23). -/
theorem ToSend.xfer_of_nil (hsend : ToSend s []) : s.ctx.xfer = .none := by
  cases hx : s.ctx.xfer with
  | none => rfl
  | resp bytes pos remaining =>
    simp only [ToSend, hx] at hsend
    obtain ⟨hpos, hend, hnil⟩ := hsend
    have hlen := congrArg List.length hnil
    rw [List.length_take, List.length_drop, List.length_nil] at hlen
    omega
  | rd pos remaining =>
    simp only [ToSend, hx] at hsend
    obtain ⟨hpos, u, -, -, hnil⟩ := hsend
    have hlen := congrArg List.length hnil
    rw [Memory.readRange_length, List.length_nil] at hlen
    omega
  | wr pos remaining =>
    simp only [ToSend, hx] at hsend

/-- The state once the first `BUF_CAP` of the bytes to send are committed and counted (R181). -/
def afterChunk (data : List Byte) (s : State) : State :=
  Machine.advanceXfer (min s.cfg.bufCap data.length)
    { s with txq := s.txq ++ [data.take s.cfg.bufCap]
             trace := s.trace ++ [.pipeCommit (data.take s.cfg.bufCap)]
             env := s.env.drawn 1 1 2 }

/-- A data step whose pipe calls succeed commits one chunk (R131, R132, R181). -/
theorem ToSend.exec_dataStepTx_sent (hsend : ToSend s data) (hne : 0 < data.length) (hst : s.ctx.st = .dispatched)
    (ha : s.nextAcquire = .buffer) (hc : s.commitAfter 1 = .ok) :
    exec .dataStepTx s = .next (afterChunk data s) := by
  rw [hsend.exec_dataStepTx hne hst, sendChunk_sent _ _ s ha hc, afterChunk]

theorem ToSend.afterChunk (hsend : ToSend s data) : ToSend (afterChunk data s) (data.drop s.cfg.bufCap) := by
  have hdrop : data.drop s.cfg.bufCap = data.drop (min s.cfg.bufCap data.length) := by
    rcases Nat.le_total s.cfg.bufCap data.length with hle | hle
    · rw [Nat.min_eq_left hle]
    · rw [Nat.min_eq_right hle, List.drop_length, List.drop_of_length_le hle]
  have hsent : ToSend { s with txq := s.txq ++ [data.take s.cfg.bufCap]
                               trace := s.trace ++ [.pipeCommit (data.take s.cfg.bufCap)]
                               env := s.env.drawn 1 1 2 } data := hsend
  rw [hdrop]
  exact hsent.advanceXfer (Nat.min_le_right _ _)

/-- The residue counts the chunk down (R181). -/
theorem afterChunk_residue (hres : s.ctx.residue.toNat = data.length) :
    (afterChunk data s).ctx.residue.toNat = (data.drop s.cfg.bufCap).length := by
  have hsub := toNat_sub_ofNat (r := s.ctx.residue) (n := min s.cfg.bufCap data.length) (by omega)
  rw [List.length_drop]
  show (s.ctx.residue - BitVec.ofNat 32 (min s.cfg.bufCap data.length)).toNat = _
  omega

end phase

/-- As many data steps as there are buffers to fill send everything, with the pipe calls succeeding: the data
phase is over, the residue 0, and nothing but `TX.q`, the trace and the draws has changed besides. -/
theorem runDataSteps_sendsAll {k : Nat} {s : State} {data : List Byte} {as : List AcquireDraw}
    {cs : List CommitDraw} (hsend : ToSend s data) (hst : s.ctx.st = .dispatched)
    (hres : s.ctx.residue.toNat = data.length) (hf : Fills s.cfg.bufCap k data.length)
    (ha : s.env.acquires = List.replicate k .buffer ++ as) (hc : s.env.commits = List.replicate k .ok ++ cs) :
    runDataSteps k s = .next
      { s with
        ctx := { s.ctx with xfer := .none, residue := 0 }
        txq := s.txq ++ buffersOf s.cfg.bufCap k data
        trace := s.trace ++ (buffersOf s.cfg.bufCap k data).map .pipeCommit
        env := s.env.drawn k k (2 * k) } := by
  induction k generalizing s data with
  | zero =>
    obtain rfl : data = [] := List.eq_nil_of_length_eq_zero hf.eq_zero
    have hctx : { s.ctx with xfer := .none, residue := 0 } = s.ctx := by
      rw [← hsend.xfer_of_nil, ← BitVec.eq_of_toNat_eq (x := s.ctx.residue) (y := 0) hres]
    rw [hctx]
    simp [runDataSteps, buffersOf, Env.drawn]
  | succ k ih =>
    obtain ⟨hne, hrest⟩ := hf.succ
    rw [List.replicate_succ, List.cons_append] at ha hc
    have hstep := hsend.exec_dataStepTx_sent hne hst (nextAcquire_of_listed s _ _ ha)
      (commitAfter_of_listed s _ _ 1 hc)
    calc runDataSteps (k + 1) s
        = runDataSteps k (afterChunk data s) := by simp only [runDataSteps, hstep]
      _ = _ := ih (s := afterChunk data s) hsend.afterChunk hst (afterChunk_residue hres)
          (by rw [List.length_drop]; exact hrest) (congrArg (List.drop 1) ha) (congrArg (List.drop 1) hc)
      _ = _ := by
        simp only [afterChunk, advanceXfer, buffersOf, Env.drawn_drawn, List.append_assoc, List.map_cons,
          List.cons_append, List.nil_append]
        rw [Nat.add_comm 1 k, Nat.mul_succ, Nat.add_comm 2]

/-- Settles O58: the response is what is to send, and its buffers are those of `buffersOf`. -/
theorem responseReachesTxWholeInFullBuffers : Obligations.ResponseReachesTxWholeInFullBuffers := by
  intro s bytes k as cs hst hcap hne hx hres hk ha hc
  have hf : Fills s.cfg.bufCap k bytes.length := hk ▸ fills_ceil bytes.length hcap
  have hpos : 1 ≤ bytes.length := List.length_pos_of_ne_nil hne
  have hsend : ToSend s bytes := by
    simp only [ToSend, hx]
    exact ⟨hpos, by omega, by simp⟩
  exact ⟨_, buffersOf s.cfg.bufCap k bytes, runDataSteps_sendsAll hsend hst hres hf ha hc, rfl,
    buffersOf_flatten hf, buffersOf_length _ _ _, buffersOf_fit hcap hf, buffersOf_full hf, rfl, rfl, rfl, rfl, rfl⟩

end Sys2Proof.Machine
end

section
/-! PROOFS. Scope: the tag (R27, R206, R281), with the CSW that carries it, and the status-only commands that
succeed (R200 to R204). -/

namespace Sys2Proof.Machine

/-! ### The tag (R27, R171, R206) -/

/-- EV_RX_READY apart, only a command writes the tag: a CBW is accepted in `CBW_WAIT`, where EV_RX_READY.DATA is
stale (R112). -/
theorem exec_tag_of_no_header {i : Instr} {s t : State} (he : exec i s = .next t) (hi : i.header = none)
    (hrx : i ≠ .evRxReady) : t.ctx.tag = s.ctx.tag := by
  cases exec_effect he with
  | command h hh _ _ => simp [hi] at hh
  | received hrow ho =>
    cases ho with
    | command b j env t hst => exact absurd (evRxReady_of_cbwWait hrow hst) hrx
    | _ => rfl
  | dataStep ho => cases ho <;> rfl
  | haltCleared ep trace _ _ => exact congrArg Ctx.tag (setHalt_ctx s ep false)
  | _ => rfl

/-! ### The CSW of STATUS entry (R280, R281) -/

theorem cswBytes_tag (tag : Tag) (residue : Word) (status : CswStatus) :
    ((cswBytes tag residue status).drop 4).take 4 = [tag.t0, tag.t1, tag.t2, tag.t3] := rfl

/-- A DispatchDone that leaves the state has queued the CSW of the command: disabled or stuck it stays (R285). -/
theorem dispatchDone_queues_csw {s t : State} (he : exec .dispatchDone s = .next t) (hst : t.ctx.st ≠ s.ctx.st) :
    t.txq = s.txq ++ [cswBytes s.ctx.tag s.ctx.residue s.ctx.status] := by
  have he : execDispatchDone s = .next t := he
  unfold execDispatchDone at he
  split at he <;> injection he with he <;> subst he
  · rcases enterStatus_cases s with ⟨_, _, _, _, _, rfl, hqueued⟩ | ⟨_, _, _, hstuck⟩
    · rw [hqueued]
    · rw [hstuck] at hst
      exact absurd rfl hst
  · exact absurd rfl hst

/-- Settles O57: a command's frame has its tag, no other row but EV_RX_READY writes it, and the CSW is built
from it. -/
theorem cswCarriesTheTagOfItsCommand : Obligations.CswCarriesTheTagOfItsCommand := by
  intro i s t he
  refine ⟨fun h hi => ?_, exec_tag_of_no_header he, ?_⟩
  · rw [(command_frame i s t h hi he).ctx]
    rfl
  · rintro rfl hst
    exact ⟨_, dispatchDone_queues_csw he hst, cswBytes_length _ _ _, cswBytes_tag _ _ _⟩

/-! ### The status-only commands (R200 to R204) -/

/-- A command that has no data phase and a handler that does nothing succeeds on a ready unit (R204). -/
theorem runCommand_statusOnly {h : CbwHeader} {s : State} {u : Lun} (hu : s.luns[h.lun.toNat]? = some u)
    (hlen : h.xferLen = 0) (hmedia : u.mediaPresent = true) (hstopped : u.stopped = false) :
    runCommand h (fun _ => statusOnlyPolicy) (fun _ t => t) s = s.withCommand h 0 .ok .none := by
  have haccepts : statusOnlyPolicy.accepts h := hlen
  have hready : statusOnlyPolicy.ready u := ⟨fun _ => hmedia, fun _ => hstopped⟩
  rw [runCommand_handler h _ _ s u hu haccepts hready, ← hlen]
  rfl

/-- Settles O22: the three rows are one command. -/
theorem statusOnlyCommandsSucceedWithoutEffect : Obligations.StatusOnlyCommandsSucceedWithoutEffect := by
  intro i h s u hi hu hlen hmedia hstopped
  have hexec : exec i s = .next (runCommand h (fun _ => statusOnlyPolicy) (fun _ t => t) s) := by
    rcases hi with rfl | rfl | rfl <;> rfl
  rw [hexec, runCommand_statusOnly hu hlen hmedia hstopped]

/-- The table of R203 in its words: (1,0) stops, (0,1) starts, otherwise `start = 0` (D14). -/
theorem stoppedAfter_eq (loej start : Bool) :
    stoppedAfter loej start =
      if loej = true ∧ start = false then true else if loej = false ∧ start = true then false else !start := by
  cases loej <;> cases start <;> rfl

/-- Settles O23: the policy leaves out the test of `stopped`, so the handler runs on any unit with a medium. -/
theorem startStopUnitWritesStopped : Obligations.StartStopUnitWritesStopped := by
  intro h loej start s u hu hlen hmedia
  have hexec : exec (.startStopUnit h loej start) s = .next (runCommand h (fun _ => startStopPolicy)
      (fun _ t => t.modifyLun t.ctx.lunSel.toNat fun v => { v with stopped := stoppedAfter loej start }) s) := rfl
  have haccepts : startStopPolicy.accepts h := hlen
  have hready : startStopPolicy.ready u := ⟨fun _ => hmedia, nofun⟩
  rw [hexec, runCommand_handler h _ _ s u hu haccepts hready, ← hlen, ← stoppedAfter_eq]
  exact congrArg _ (modifyLun_of_some (loadCommand h s) h.lun.toNat _ u hu)

end Sys2Proof.Machine
end

section
/-! PROOFS. Scope: the fixed-length response commands (R220 to R230). The INQUIRY rows that answer a block, the two
capacity commands, MODE SENSE(6) and REQUEST SENSE, with the numbers their layouts report. -/

namespace Sys2Proof.Machine

/-! ### Response commands (R174, R176, R180) -/

/-- A command that answers a response block, once its length, its direction and the unit pass the tests. -/
theorem runCommand_response {h : CbwHeader} {p : Policy} (bytes : Lun → State → List Byte) {s : State} {u : Lun}
    (hu : s.luns[h.lun.toNat]? = some u) (haccepts : p.accepts h) (hready : p.ready u) :
    runCommand h (fun _ => p) (fun v t => setupResp (bytes v t) t) s =
      s.withCommand h h.xferLen .ok
        (.resp (bytes u (loadCommand h s)) 0 (bytes u (loadCommand h s)).length) := by
  rw [runCommand_handler h _ _ s u hu haccepts hready, setupResp_loaded]

/-- A command that answers a layout under a configured length answers that many bytes, and the layout itself when it
has that length (R180, log 11). -/
theorem exec_configuredResponse {i : Instr} {h : CbwHeader} {p : Policy} {n : Nat} {layout : Lun → List Byte}
    {s : State} {u : Lun}
    (hexec : exec i s = .next (runCommand h (fun _ => p) (fun v t => setupResp (responseOf n (layout v) t) t) s))
    (hu : s.luns[h.lun.toNat]? = some u) (haccepts : p.accepts h) (hready : p.ready u) :
    ∃ bytes : List Byte, bytes.length = n ∧
      exec i s = .next (s.withCommand h h.xferLen .ok (.resp bytes 0 bytes.length)) ∧
      ((layout u).length = n → bytes = layout u) := by
  refine ⟨responseOf n (layout u) (loadCommand h s), responseOf_length _ _ _, ?_, responseOf_layout _ _ _⟩
  rw [hexec, runCommand_response (fun v t => responseOf n (layout v) t) hu haccepts hready]

/-- INQUIRY and REQUEST SENSE are not LUN-state-sensitive (R109, R230). -/
theorem alwaysReadyPolicy_ready (len : Nat) (u : Lun) : (alwaysReadyPolicy len).ready u := ⟨nofun, nofun⟩

/-- Settles O24: each of the five rows is `inquiryCommand` of its block, and no unit fails its readiness test. -/
theorem inquiryAnswersItsConfiguredBlock : Obligations.InquiryAnswersItsConfiguredBlock := by
  intro i h s u data hi hu hne hdir hlen
  have hexec : exec i s = .next (inquiryCommand h data s) := by
    rcases hi with ⟨rfl, rfl⟩ | ⟨rfl, rfl⟩ | ⟨rfl, rfl⟩ | ⟨rfl, rfl⟩ | ⟨rfl, rfl⟩ <;> rfl
  have haccepts : (alwaysReadyPolicy data.length).accepts h := ⟨hne, hdir, hlen⟩
  rw [hexec, inquiryCommand, runCommand_response (fun _ _ => data) hu haccepts (alwaysReadyPolicy_ready _ u)]

/-! ### The numbers in the capacity layouts (R66, R226, R227) -/

theorem capacityData_length (u : Lun) : (capacityData u).length = 8 := rfl

theorem formatCapacityData_length (u : Lun) : (formatCapacityData u).length = 12 := rfl

theorem be32_ofNat_reads {n : Nat} (hn : n < 2 ^ 32) :
    ∃ b0 b1 b2 b3 : Byte, be32 (BitVec.ofNat 32 n) = [b0, b1, b2, b3] ∧ (unbe32 b0 b1 b2 b3).toNat = n :=
  ⟨_, _, _, _, rfl, by rw [unbe32_be32, BitVec.toNat_ofNat, Nat.mod_eq_of_lt hn]⟩

theorem be24_ofNat_reads {n : Nat} (hn : n < 2 ^ 24) :
    ∃ b0 b1 b2 : Byte, be24 (BitVec.ofNat 24 n) = [b0, b1, b2] ∧ (unbe32 0 b0 b1 b2).toNat = n :=
  ⟨_, _, _, rfl, by rw [unbe32_be24, BitVec.toNat_ofNat, Nat.mod_eq_of_lt hn]⟩

/-- READ CAPACITY data in the range of R6: the last block address and the block length (R226). -/
theorem capacityData_reads {u : Lun} (hcount : u.blockCount < 2 ^ 32) (hsize : u.blockSize < 2 ^ 24) :
    ∃ c0 c1 c2 c3 z0 z1 z2 z3 : Byte, capacityData u = [c0, c1, c2, c3, z0, z1, z2, z3] ∧
      (unbe32 c0 c1 c2 c3).toNat = u.blockCount - 1 ∧ (unbe32 z0 z1 z2 z3).toNat = u.blockSize := by
  obtain ⟨c0, c1, c2, c3, hc, hlast⟩ := be32_ofNat_reads (n := u.blockCount - 1) (by omega)
  obtain ⟨z0, z1, z2, z3, hz, hlength⟩ := be32_ofNat_reads (n := u.blockSize) (by omega)
  exact ⟨c0, c1, c2, c3, z0, z1, z2, z3, by rw [capacityData, hc, hz]; rfl, hlast, hlength⟩

/-- READ FORMAT CAPACITY data in the range of R6: the block count and the block length (R227). -/
theorem formatCapacityData_reads {u : Lun} (hcount : u.blockCount < 2 ^ 32) (hsize : u.blockSize < 2 ^ 24) :
    ∃ c0 c1 c2 c3 z1 z2 z3 : Byte,
      formatCapacityData u = [0x00, 0x00, 0x00, 0x08, c0, c1, c2, c3, 0x02, z1, z2, z3] ∧
      (unbe32 c0 c1 c2 c3).toNat = u.blockCount ∧ (unbe32 0 z1 z2 z3).toNat = u.blockSize := by
  obtain ⟨c0, c1, c2, c3, hc, hblocks⟩ := be32_ofNat_reads hcount
  obtain ⟨z1, z2, z3, hz, hlength⟩ := be24_ofNat_reads hsize
  exact ⟨c0, c1, c2, c3, z1, z2, z3, by rw [formatCapacityData, hc, hz]; rfl, hblocks, hlength⟩

/-- Settles O25: the three commands pass their tests on a ready unit, and a response of its layout's length is the
layout. -/
theorem capacityAndModeResponses : Obligations.CapacityAndModeResponses := by
  intro h s u hu _ hcount _ hsize hmedia hstopped hne hdir
  have hready (n : Nat) : (mediaResponsePolicy n).ready u := ⟨fun _ => hmedia, fun _ => hstopped⟩
  have haccepts {n : Nat} (hlen : h.xferLen.toNat = n) : (mediaResponsePolicy n).accepts h := ⟨hne, hdir, hlen⟩
  refine ⟨fun hlen => ?readCapacity, fun hlen => ?readFormatCapacity, fun hlen => ?modeSense6⟩
  case readCapacity =>
    obtain ⟨bytes, hbytes, hexec, hreported⟩ :=
      exec_configuredResponse (i := .readCapacity h) (layout := capacityData) rfl hu (haccepts hlen) (hready _)
    refine ⟨bytes, hbytes, hexec, fun hlayout => ?_⟩
    rw [hreported ((capacityData_length u).trans hlayout.symm)]
    exact capacityData_reads hcount hsize
  case readFormatCapacity =>
    obtain ⟨bytes, hbytes, hexec, hreported⟩ :=
      exec_configuredResponse (i := .readFormatCapacity h) (layout := formatCapacityData) rfl hu (haccepts hlen)
        (hready _)
    refine ⟨bytes, hbytes, hexec, fun hlayout => ?_⟩
    rw [hreported ((formatCapacityData_length u).trans hlayout.symm)]
    exact formatCapacityData_reads hcount hsize
  case modeSense6 =>
    have hexec : exec (.modeSense6 h) s = .next (runCommand h (fun _ => mediaResponsePolicy 4)
        (fun _ t => setupResp s.cfg.mode6Data.toList t) s) := rfl
    rw [hexec, runCommand_response (fun _ _ => s.cfg.mode6Data.toList) hu (haccepts hlen) (hready 4),
      Vector.length_toList]

/-! ### REQUEST SENSE (R228, R351) -/

theorem senseData_length (x : SenseTriple) : (senseData x).length = 18 := rfl

/-- A table of sense positions that agrees with `senseIndex` row by row gives no other position. -/
theorem eq_senseIndex_of_mem {table : List (Sense × Fin 16)} (htable : ∀ row ∈ table, row.2 = senseIndex row.1)
    {x : Sense} {i : Fin 16} (hx : (x, i) ∈ table) : i = senseIndex x := htable (x, i) hx

/-- REQUEST SENSE on a unit in any state: the response is set up, then the pending sense is cleared (R228). -/
theorem exec_requestSense {h : CbwHeader} {s : State} {u : Lun} (hu : s.luns[h.lun.toNat]? = some u)
    (haccepts : (alwaysReadyPolicy s.cfg.senseLen).accepts h) :
    exec (.requestSense h) s = .next
      ((setupResp (responseOf s.cfg.senseLen (senseData (senseTriple s.cfg u.lastSense)) (loadCommand h s))
        (loadCommand h s)).withLun h.lun.toNat { u with lastSense := .ok }) := by
  have hhandler := runCommand_handler h (fun _ => alwaysReadyPolicy s.cfg.senseLen)
    (fun v t => recordSense t.ctx.lunSel.toNat .ok
      (setupResp (responseOf t.cfg.senseLen (senseData (senseTriple t.cfg v.lastSense)) t) t))
    s u hu haccepts (alwaysReadyPolicy_ready _ u)
  exact congrArg _ (hhandler.trans (modifyLun_of_some _ h.lun.toNat _ u hu))

/-- Settles O26: the position R351 lists the pending sense at is `senseIndex` of it, and a response of the
layout's length is the layout. -/
theorem requestSenseReportsAndClearsThePendingSense :
    Obligations.RequestSenseReportsAndClearsThePendingSense := by
  intro h s u i x hu hne hdir hlen hposition hx
  have hi : i = senseIndex u.lastSense := eq_senseIndex_of_mem (by decide) hposition
  have htriple : senseTriple s.cfg u.lastSense = x := by rw [hx, hi, senseTriple]
  refine ⟨responseOf s.cfg.senseLen (senseData x) (loadCommand h s), responseOf_length _ _ _, ?_,
    fun hlayout => responseOf_layout _ _ _ ((senseData_length x).trans hlayout.symm)⟩
  rw [exec_requestSense hu ⟨hne, hdir, hlen⟩, htriple, setupResp_loaded]

end Sys2Proof.Machine
end

section
/-! PROOFS. Scope: READ(10) and WRITE(10) (R250 to R253): the range check and the data phase each sets up, a payload
buffer stored, and the whole command from its dispatch to its CSW in either direction. -/

namespace Sys2Proof.Machine

/-! ### The range check and the descriptor (R250 to R252) -/

/-- The handler READ(10) and WRITE(10) share, `kind` being the descriptor's. -/
def transferHandler (kind : Nat → Nat → Xfer) (lba : Word) (count : BitVec 16) (u : Lun) (s : State) : State :=
  if rangeOk lba count u then s.setXfer (kind (lba.toNat * u.blockSize) (count.toNat * u.blockSize))
  else commandFail .invalidLba s

theorem exec_read10 (h : CbwHeader) (lba : Word) (count : BitVec 16) (s : State) :
    exec (.read10 h lba count) s =
      .next (runCommand h (transferPolicy .dirIn count) (transferHandler .rd lba count) s) := rfl

theorem exec_write10 (h : CbwHeader) (lba : Word) (count : BitVec 16) (s : State) :
    exec (.write10 h lba count) s =
      .next (runCommand h (transferPolicy .dirOut count) (transferHandler .wr lba count) s) := rfl

section transfer

variable {dir : Dir} {kind : Nat → Nat → Xfer} {h : CbwHeader} {lba : Word} {count : BitVec 16} {s : State}
  {u : Lun}

theorem rangeOk_iff : rangeOk lba count u = true ↔ lba.toNat + count.toNat ≤ u.blockCount := decide_eq_true_iff

/-- A transfer that passes the tests of the dispatcher but not its range check fails with INVALID_LBA (R252). -/
theorem runCommand_transfer_beyond (hu : s.luns[h.lun.toNat]? = some u)
    (haccepts : (transferPolicy dir count u).accepts h) (hready : (transferPolicy dir count u).ready u)
    (hbeyond : u.blockCount < lba.toNat + count.toNat) :
    runCommand h (transferPolicy dir count) (transferHandler kind lba count) s =
      (s.withCommand h h.xferLen .failed .none).withLun h.lun.toNat { u with lastSense := .invalidLba } := by
  have hrange : ¬ rangeOk lba count u = true := mt rangeOk_iff.mp (Nat.not_le.mpr hbeyond)
  rw [runCommand_handler h _ _ s u hu haccepts hready, transferHandler, if_neg hrange, commandFail_loaded _ _ _ _ hu]

/-- A transfer that passes every test sets up the descriptor of its block range (R250, R251). -/
theorem runCommand_transfer_inside (hu : s.luns[h.lun.toNat]? = some u)
    (haccepts : (transferPolicy dir count u).accepts h) (hready : (transferPolicy dir count u).ready u)
    (hinside : lba.toNat + count.toNat ≤ u.blockCount) :
    runCommand h (transferPolicy dir count) (transferHandler kind lba count) s =
      s.withCommand h h.xferLen .ok (kind (lba.toNat * u.blockSize) (count.toNat * u.blockSize)) := by
  rw [runCommand_handler h _ _ s u hu haccepts hready, transferHandler, if_pos (rangeOk_iff.mpr hinside)]
  rfl

end transfer

/-- Settles O21: the policy of either row is the transfer's in its direction, and the range check fails. -/
theorem transferBeyondTheLastBlockFails : Obligations.TransferBeyondTheLastBlockFails := by
  intro i h lba count s u p hi hu hp haccepts hready hbeyond
  rcases hi with rfl | rfl
  · obtain rfl : transferPolicy .dirIn count u = p := Option.some.inj hp
    rw [exec_read10, runCommand_transfer_beyond hu haccepts hready hbeyond]
  · obtain rfl : transferPolicy .dirOut count u = p := Option.some.inj hp
    rw [exec_write10, runCommand_transfer_beyond hu haccepts hready hbeyond]

/-- Settles O27: either command passes the tests of the dispatcher, then its range check. -/
theorem transfersInsideTheStoreSetUpTheirDataPhase : Obligations.TransfersInsideTheStoreSetUpTheirDataPhase := by
  intro h lba count s u hu hne hlen hmedia hstopped hinside
  have haccepts : (transferPolicy h.dir count u).accepts h := ⟨hne, rfl, hlen⟩
  have hready (dir : Dir) : (transferPolicy dir count u).ready u := ⟨fun _ => hmedia, fun _ => hstopped⟩
  refine ⟨fun hdir => ?read, fun hdir => ?write⟩ <;> rw [hdir] at haccepts
  case read => rw [exec_read10, runCommand_transfer_inside hu haccepts (hready _) hinside]
  case write => rw [exec_write10, runCommand_transfer_inside hu haccepts (hready _) hinside]

/-! ### One payload buffer (R253) -/

theorem memWrite_eq_of_inside {s : State} {l pos : Nat} {b : Buffer} {u : Lun} (hu : s.luns[l]? = some u)
    (hin : pos + b.length ≤ u.blockSize * u.blockCount) :
    memWrite l pos b s =
      some ((s.withLun l { u with store := u.store.writeRange pos b }).emit (.memWrite l pos b)) := by
  have hcap : pos + b.length ≤ u.capacity := hin
  simp only [memWrite, hu, if_pos hcap, modifyLun_of_some _ _ _ _ hu]

/-- Settles O30: either row runs the payload step, whose acquire returns the buffer and whose write lies inside the
store. -/
theorem payloadBufferIsStoredAndCounted : Obligations.PayloadBufferIsStoredAndCounted := by
  intro i s pos remaining b q u hi hst hw hx hq hu hle hin ha
  have hfits : ¬ remaining < b.length := by omega
  have hwrite := memWrite_eq_of_inside (s := { s with rxq := q, env := s.env.drawn 1 0 1 }) hu hin
  rw [exec_rxReady_payload i s pos remaining hi hst hw hx (by simp [hq])]
  simp only [receivePayload, pipeAcquireRx_buffer s b q ha hq, storePayload, if_neg hfits, hwrite, advanceXfer,
    pipeDiscard, State.emit, State.withLun, hx, Xfer.advance, List.append_assoc, List.cons_append, List.nil_append]

/-! ### A whole host→device data phase (R251, R253, R68) -/

theorem Memory.writeRange_append (m : Memory) (a : Nat) (v w : List Byte) :
    m.writeRange a (v ++ w) = (m.writeRange a v).writeRange (a + v.length) w := by
  induction v generalizing m a with
  | nil => rfl
  | cons b v ih =>
    rw [List.cons_append, Memory.writeRange, Memory.writeRange, ih, List.length_cons, Nat.add_right_comm, Nat.add_assoc]

/-- The host→device data phase that stands at `pos` with `n` bytes still to come; over when none are (R253). -/
def awaiting (pos n : Nat) : Xfer := if n = 0 then .none else .wr pos n

theorem awaiting_zero (pos : Nat) : awaiting pos 0 = .none := rfl

theorem awaiting_of_pos {n : Nat} (pos : Nat) (hn : 1 ≤ n) : awaiting pos n = .wr pos n := if_neg (by omega)

/-- Writing back the record that is there changes nothing. -/
theorem withLun_self {s : State} {l : Nat} {u : Lun} (hu : s.luns[l]? = some u) : s.withLun l u = s := by
  obtain ⟨hl, rfl⟩ := List.getElem?_eq_some_iff.mp hu
  rw [State.withLun, List.set_getElem_self]

theorem withLun_getElem?_self {s : State} {l : Nat} {u v : Lun} (hu : s.luns[l]? = some u) :
    (s.withLun l v).luns[l]? = some v := by
  obtain ⟨hl, -⟩ := List.getElem?_eq_some_iff.mp hu
  exact List.getElem?_set_self hl

/-- The state once one payload buffer at `pos`, of `n` bytes awaited, is stored and counted (R253). -/
def afterPayload (b : Buffer) (pos n : Nat) (u : Lun) (s : State) : State :=
  ({ s with
      ctx := { s.ctx with residue := s.ctx.residue - BitVec.ofNat 32 b.length
                          xfer := awaiting (pos + b.length) (n - b.length) }
      rxq := []
      trace := s.trace ++ [.memWrite s.ctx.lunSel.toNat pos b, .pipeDiscard]
      env := s.env.drawn 1 0 1 } : State).withLun s.ctx.lunSel.toNat
    { u with store := u.store.writeRange pos b }

/-- Payload buffers of exactly the awaited length are stored end to end, with the pipe calls succeeding: the data
phase is over, the residue 0, and nothing but the selected store, `RX.q`, the trace and the draws has changed
besides. -/
theorem runPayload_storesAll {bufs : List Buffer} {s : State} {pos : Nat} {u : Lun} {as : List AcquireDraw}
    (hst : s.ctx.st = .dispatched) (hw : s.ctx.wedged = false) (hx : s.ctx.xfer = awaiting pos bufs.flatten.length)
    (hres : s.ctx.residue.toNat = bufs.flatten.length) (hne : ∀ b ∈ bufs, 1 ≤ b.length)
    (hu : s.luns[s.ctx.lunSel.toNat]? = some u) (hin : pos + bufs.flatten.length ≤ u.blockSize * u.blockCount)
    (ha : s.env.acquires = List.replicate bufs.length .buffer ++ as) :
    ∃ rxq trace, runPayload bufs s = .next
      (({ s with
          ctx := { s.ctx with xfer := .none, residue := 0 }
          rxq := rxq
          trace := trace
          env := s.env.drawn bufs.length 0 bufs.length } : State).withLun s.ctx.lunSel.toNat
        { u with store := u.store.writeRange pos bufs.flatten }) := by
  induction bufs generalizing s pos u with
  | nil =>
    have hnone : s.ctx.xfer = .none := hx.trans (awaiting_zero pos)
    have hctx : { s.ctx with xfer := .none, residue := 0 } = s.ctx := by
      rw [← hnone, ← BitVec.eq_of_toNat_eq (x := s.ctx.residue) (y := 0) hres]
    refine ⟨s.rxq, s.trace, ?_⟩
    rw [hctx]
    exact congrArg Host.Outcome.next (withLun_self hu).symm
  | cons b bufs ih =>
    obtain ⟨hb, hbufs⟩ := List.forall_mem_cons.mp hne
    rw [List.flatten_cons, List.length_append] at hx hres hin
    rw [awaiting_of_pos pos (by omega)] at hx
    rw [List.length_cons, List.replicate_succ, List.cons_append] at ha
    have hstep : exec .evRxReadyData { s with rxq := [b] } =
        .next (afterPayload b pos (b.length + bufs.flatten.length) u s) :=
      payloadBufferIsStoredAndCounted .evRxReadyData { s with rxq := [b] } pos _ b [] u (.inl rfl) hst hw hx rfl hu
        (by omega) (by omega) (nextAcquire_of_listed _ _ _ ha)
    have hsub := toNat_sub_ofNat (r := s.ctx.residue) (n := b.length) (by omega)
    obtain ⟨rxq, trace, hrest⟩ := ih (s := afterPayload b pos (b.length + bufs.flatten.length) u s)
      (pos := pos + b.length) (u := { u with store := u.store.writeRange pos b }) hst hw
      (by simp only [afterPayload, State.withLun, Nat.add_sub_cancel_left])
      (hsub.trans (by omega)) hbufs (withLun_getElem?_self hu)
      (by rw [Nat.add_assoc]; exact hin) (congrArg (List.drop 1) ha)
    refine ⟨rxq, trace, ?_⟩
    simp only [runPayload, hstep, hrest]
    simp only [afterPayload, State.withLun, List.set_set, Env.drawn_drawn, List.flatten_cons, Memory.writeRange_append,
      List.length_cons, Nat.add_comm 1]

/-! ### The CSW of a command that moved everything (R280, R281) -/

/-- With residue 0 the end of a command stalls nothing (R282, R284). -/
theorem finishCommand_complete {s : State} (hres : s.ctx.residue = 0) :
    finishCommand s =
      { s with ctx := { s.ctx with busy := false, residue := 0, st := .status }
               trace := s.trace ++ [.lpmAllow true] } := by
  have hstall : stallShortIn (setBusy false s) = setBusy false s := by simp [stallShortIn, hres]
  rw [finishCommand, hstall]
  rfl

/-- DispatchDone with residue 0 queues the CSW and stalls nothing, with the pipe calls succeeding (R280 to R284). -/
theorem exec_dispatchDone_complete {s : State} (hst : s.ctx.st = .dispatched) (hx : s.ctx.xfer = .none)
    (hw : s.ctx.wedged = false) (hres : s.ctx.residue = 0) (ha : s.nextAcquire = .buffer)
    (hc : s.commitAfter 1 = .ok) :
    exec .dispatchDone s = .next
      { s with
        ctx := { s.ctx with busy := false, residue := 0, st := .status }
        txq := s.txq ++ [cswBytes s.ctx.tag 0 s.ctx.status]
        trace := s.trace ++ [.pipeCommit (cswBytes s.ctx.tag 0 s.ctx.status), .lpmAllow true]
        env := s.env.drawn 1 1 2 } := by
  have hstall : stallUnfinishedOut s = s := by simp [stallUnfinishedOut, hres]
  have hqueue := queueTx_queued (cswBytes s.ctx.tag 0 s.ctx.status) ha hc
  rw [exec_dispatchDone_enabled hst hx hw]
  simp only [enterStatus, hstall, hres, hqueue]
  rw [finishCommand_complete]
  · simp only [List.append_assoc, List.cons_append, List.nil_append]
  · exact hres

/-! ### Whole transfers (R250, R251) -/

/-- The outcomes listed after `k` equal ones. -/
theorem drop_replicate_append {α : Type} (k : Nat) (d : α) (rest : List α) :
    (List.replicate k d ++ rest).drop k = rest := List.drop_left' List.length_replicate

/-- Settles O59: READ(10) sets up its data phase, whose bytes are those of the block range; the data steps send them
all in the buffers of `buffersOf`, and DispatchDone ends a command that moved everything. -/
theorem readDeliversTheBlocksAndASuccessfulCsw : Obligations.ReadDeliversTheBlocksAndASuccessfulCsw := by
  intro s h lba count u k as cs hst hw hcap hu hdir hne hlen hmedia hstopped hinside hk ha hc
  obtain ⟨data, hdata⟩ : ∃ data, data = u.store.readRange (lba.toNat * u.blockSize) (count.toNat * u.blockSize) :=
    ⟨_, rfl⟩
  have hlength : data.length = count.toNat * u.blockSize := by rw [hdata, Memory.readRange_length]
  have hpos : h.xferLen.toNat ≠ 0 := fun e => hne (BitVec.eq_of_toNat_eq e)
  have hf : Fills s.cfg.bufCap k data.length := hk ▸ hlength ▸ fills_ceil data.length hcap
  have hread := (transfersInsideTheStoreSetUpTheirDataPhase h lba count s u hu hne hlen hmedia hstopped hinside).1 hdir
  have hsend : ToSend (s.withCommand h h.xferLen .ok
      (.rd (lba.toNat * u.blockSize) (count.toNat * u.blockSize))) data :=
    ⟨by omega, u, hu, rangeOk_capacity (rangeOk_iff.mpr hinside), hdata⟩
  rw [List.replicate_succ', List.append_assoc] at ha hc
  have hsteps := runDataSteps_sendsAll hsend hst (hlen.trans hlength.symm) hf ha hc
  have hacquires := (congrArg (List.drop k) ha).trans (drop_replicate_append k _ _)
  have hcommits := (congrArg (List.drop k) hc).trans (drop_replicate_append k _ _)
  have hflatten : (buffersOf s.cfg.bufCap k data).flatten = data := buffersOf_flatten hf
  refine ⟨_, _, _, buffersOf s.cfg.bufCap k data, hread, hsteps,
    exec_dispatchDone_complete hst rfl hw rfl (nextAcquire_of_listed _ _ _ hacquires)
      (commitAfter_of_listed _ _ _ 1 hcommits),
    hflatten.symm ▸ hlength, fun j hj => ?_, buffersOf_length _ _ _, buffersOf_fit hcap hf,
    rfl, rfl, rfl, rfl, rfl, rfl⟩
  rw [hflatten, hdata, Memory.readRange_getElem? _ _ _ _ hj, State.storeByte, hu]
  rfl

/-- A payload is read back where it was written, and every other byte of every store is as before (R61, R68). -/
theorem storeByte_written {s : State} (hwf : ∀ v ∈ s.luns, v.store.wf) {k pos : Nat} {u : Lun} {v : List Byte}
    (hu : s.luns[k]? = some u) (l a : Nat) :
    (s.withLun k { u with store := u.store.writeRange pos v }).storeByte l a =
      if l = k ∧ pos ≤ a ∧ a < pos + v.length then v[a - pos]? else s.storeByte l a := by
  by_cases hin : l = k ∧ pos ≤ a ∧ a < pos + v.length
  · rw [if_pos hin]
    obtain ⟨rfl, hrange⟩ := hin
    have hbyte : v[a - pos]? = some (byteAt v (a - pos)) := by
      rw [byteAt, List.getD_eq_getElem?_getD, List.getElem?_eq_getElem (by omega), Option.getD_some]
    rw [State.storeByte, withLun_getElem?_self hu, hbyte, Option.map_some,
      Memory.byte_writeRange _ _ _ _ (hwf u (List.mem_of_getElem? hu)), if_pos hrange]
  · rw [if_neg hin]
    have hluns := modify_of_some s.luns k (fun w => { w with store := w.store.writeRange pos v }) u hu
    exact storeByte_writePayload hwf hluns.symm (by omega)

/-- Settles O60: WRITE(10) sets up its data phase, the payload is stored end to end however it is split, and
DispatchDone ends a command that moved everything. -/
theorem writeStoresThePayloadHoweverItIsSplit : Obligations.WriteStoresThePayloadHoweverItIsSplit := by
  intro s h lba count u bufs as cs hst hw hwf hu hdir hne hlen hmedia hstopped hinside hbufs hlength ha hc
  have hpos : h.xferLen.toNat ≠ 0 := fun e => hne (BitVec.eq_of_toNat_eq e)
  have hwrite :=
    (transfersInsideTheStoreSetUpTheirDataPhase h lba count s u hu hne hlen hmedia hstopped hinside).2 hdir
  rw [← hlength, ← awaiting_of_pos _ (by omega)] at hwrite
  rw [List.replicate_succ', List.append_assoc] at ha
  obtain ⟨rxq, trace, hstored⟩ := runPayload_storesAll (s := s.withCommand h h.xferLen .ok
      (awaiting (lba.toNat * u.blockSize) bufs.flatten.length)) hst hw rfl (hlen.trans hlength.symm) hbufs hu
    (hlength ▸ rangeOk_capacity (rangeOk_iff.mpr hinside)) ha
  have hacquires := (congrArg (List.drop bufs.length) ha).trans (drop_replicate_append bufs.length _ _)
  exact ⟨_, _, _, hwrite, hstored,
    exec_dispatchDone_complete hst rfl hw rfl (nextAcquire_of_listed _ _ _ hacquires)
      (commitAfter_of_listed _ _ _ 1 hc),
    storeByte_written hwf hu, rfl, rfl, rfl, rfl, rfl⟩

end Sys2Proof.Machine
end

section
/-! PROOFS. Scope: the status phase (R280 to R285): the CSW that is queued, and the one that cannot be, at STATUS
entry and at the phase-error entry (R154). -/

namespace Sys2Proof.Machine

/-! ### The two stalls, as updates (R283, R284) -/

/-- A stall that is due on two conditions sets the halt bit, else leaves it. -/
theorem haltBit_ite (p q : Prop) [Decidable p] [Decidable q] (b : Bool) :
    (if p ∧ q then true else b) = (b || (decide p && decide q)) := by
  by_cases hp : p <;> by_cases hq : q <;> simp [hp, hq]

/-- An action that is due on a condition is what the trace grows by. -/
theorem trace_ite (p : Prop) [Decidable p] (l : List Action) (a : Action) :
    (if p then l ++ [a] else l) = l ++ if p then [a] else [] := by
  by_cases hp : p <;> simp [hp]

theorem stallUnfinishedOut_update (s : State) :
    stallUnfinishedOut s =
      { s with
        haltRx := s.haltRx || (s.ctx.dir = .dirOut && s.ctx.residue ≠ 0)
        trace := s.trace ++ if s.ctx.dir = .dirOut ∧ s.ctx.residue ≠ 0 then [.stall .rx] else [] } := by
  simp only [stallUnfinishedOut_eq, haltBit_ite, trace_ite]

/-- The end of a command whose CSW is queued: idle, with TX stalled for a short IN data phase (R282, R284). -/
theorem finishCommand_eq (s : State) :
    finishCommand s =
      { s with
        ctx := { s.ctx with busy := false, residue := 0, st := .status }
        haltTx := s.haltTx || (s.ctx.dir = .dirIn && s.ctx.residue ≠ 0)
        trace := s.trace ++ [.lpmAllow true] ++
          if s.ctx.dir = .dirIn ∧ s.ctx.residue ≠ 0 then [.stall .tx] else [] } := by
  simp only [finishCommand, stallShortIn_eq, haltBit_ite, trace_ite]
  rfl

/-! ### The CSW that is queued (R280 to R284) -/

/-- STATUS entry with both pipe calls succeeding: the stall of RX, the CSW, the end of the command. -/
theorem enterStatus_queued {s : State} (ha : s.nextAcquire = .buffer) (hc : s.commitAfter 1 = .ok) :
    enterStatus s =
      { s with
        ctx := { s.ctx with busy := false, residue := 0, st := .status }
        haltRx := s.haltRx || (s.ctx.dir = .dirOut && s.ctx.residue ≠ 0)
        haltTx := s.haltTx || (s.ctx.dir = .dirIn && s.ctx.residue ≠ 0)
        txq := s.txq ++ [cswBytes s.ctx.tag s.ctx.residue s.ctx.status]
        trace := s.trace ++ (if s.ctx.dir = .dirOut ∧ s.ctx.residue ≠ 0 then [.stall .rx] else []) ++
          [.pipeCommit (cswBytes s.ctx.tag s.ctx.residue s.ctx.status), .lpmAllow true] ++
          (if s.ctx.dir = .dirIn ∧ s.ctx.residue ≠ 0 then [.stall .tx] else [])
        env := s.env.drawn 1 1 2 } := by
  have hqueue := queueTx_queued (cswBytes s.ctx.tag s.ctx.residue s.ctx.status) (s := stallUnfinishedOut s)
    (by rwa [stallUnfinishedOut_update]) (by rwa [stallUnfinishedOut_update])
  rw [stallUnfinishedOut_update] at hqueue
  simp only [enterStatus, stallUnfinishedOut_update, hqueue, finishCommand_eq, List.append_assoc, List.cons_append,
    List.nil_append]

/-- Settles O37: DispatchDone is STATUS entry, and the CSW it queues has the bytes of R94. -/
theorem dispatchDoneQueuesTheCsw : Obligations.DispatchDoneQueuesTheCsw := by
  intro s csw hst hx hw ha hc hcsw
  have hbytes : csw = cswBytes s.ctx.tag s.ctx.residue s.ctx.status := by
    rw [hcsw]
    cases s.ctx.status <;> rfl
  rw [exec_dispatchDone_enabled hst hx hw, enterStatus_queued ha hc, hbytes]

/-! ### The CSW that cannot be queued (R285) -/

/-- A message is not queued when no buffer is acquired or its commit fails: only the draws change (R131, R132). -/
theorem queueTx_failed (bytes : Buffer) {s : State}
    (hfail : s.nextAcquire ≠ .buffer ∨ (s.nextAcquire = .buffer ∧ s.commitAfter 1 = .fail)) :
    queueTx bytes s =
      (false, { s with env := if s.nextAcquire = .buffer then s.env.drawn 1 1 2 else s.env.drawn 1 0 1 }) := by
  rcases queueTx_cases bytes s with ⟨ha, hc, -⟩ | ⟨hno, e⟩ | ⟨ha, -, e⟩
  · rcases hfail with hno | ⟨-, hcommit⟩
    · exact absurd ha hno
    · rw [nextCommit_drawnAcquire, hcommit] at hc
      cases hc
  · rw [e, if_neg hno, drawnAcquire_eq]
  · rw [e, if_pos ha, drawnAcquire_eq, drawnCommit_eq, Env.drawn_drawn]

/-- STATUS entry whose CSW cannot be queued: stuck, after the stall of RX if it is due (R283, R285). -/
theorem enterStatus_stuck {s : State}
    (hfail : s.nextAcquire ≠ .buffer ∨ (s.nextAcquire = .buffer ∧ s.commitAfter 1 = .fail)) :
    enterStatus s =
      { s with
        ctx := { s.ctx with wedged := true }
        haltRx := s.haltRx || (s.ctx.dir = .dirOut && s.ctx.residue ≠ 0)
        trace := s.trace ++ (if s.ctx.dir = .dirOut ∧ s.ctx.residue ≠ 0 then [.stall .rx] else [])
        env := if s.nextAcquire = .buffer then s.env.drawn 1 1 2 else s.env.drawn 1 0 1 } := by
  have hqueue := queueTx_failed (cswBytes s.ctx.tag s.ctx.residue s.ctx.status) (s := stallUnfinishedOut s)
    (by rwa [stallUnfinishedOut_update])
  rw [stallUnfinishedOut_update] at hqueue
  simp only [enterStatus, stallUnfinishedOut_update, hqueue, wedge]
  rfl

/-- The phase-error entry whose CSW cannot be queued: stuck, with the flag and status 2 (R154, R285). The draw of
the tag comes before those of the pipe. -/
theorem raisePhaseError_stuck {s : State}
    (hfail : s.acquireAfter 0 1 ≠ .buffer ∨ (s.acquireAfter 0 1 = .buffer ∧ s.commitAfter 2 = .fail)) :
    raisePhaseError s =
      { s with
        ctx := { s.ctx with phaseError := true, status := .phaseError, wedged := true }
        env := if s.acquireAfter 0 1 = .buffer then s.env.drawn 1 1 3 else s.env.drawn 1 0 2 } := by
  have hqueue := queueTx_failed (cswBytes (Config.freeTag s.env.draws) 0 .phaseError)
    (s := { s with ctx := phaseErrorCtx s, env := s.env.drawn 0 0 1 }) hfail
  simp only [phaseErrorCtx] at hqueue
  simp only [raisePhaseError, drawnTag_eq, hqueue, wedge, Env.drawn_drawn]
  rfl

/-- Settles O35: STATUS entry and the phase-error entry, each with its CSW not queued. -/
theorem cswThatCannotBeQueuedLeavesTheBlockStuck : Obligations.CswThatCannotBeQueuedLeavesTheBlockStuck := by
  intro s hw
  constructor
  · intro hst hx hfail
    rw [exec_dispatchDone_enabled hst hx hw, enterStatus_stuck hfail]
  · intro b q hst hpe hq ha hv hfail
    rw [exec_rxReady_parse s b q hst hpe hw hq ha, parseCbw_invalid (by simp [hv]), raisePhaseError_stuck hfail]
    simp only [Env.drawn_drawn]
    rfl

end Sys2Proof.Machine
end

section
/-! PROOFS. Scope: what a scheduled turn runs (R301, R355): the row of the head event, the internal step, or the
posting of an event. -/

namespace Sys2Proof.Machine

/-! ### The row of an event (R106, R112) -/

theorem Xfer.isWrite_iff (x : Xfer) : x.isWrite = true ↔ ∃ pos n, x = .wr pos n := by
  cases x <;> simp [Xfer.isWrite]

/-- A received buffer is payload while a WRITE(10) waits in `DISPATCHED` (R112). -/
theorem instrOfEvent_rxReady_payload {s : State} (hst : s.ctx.st = .dispatched)
    (hx : ∃ pos n, s.ctx.xfer = .wr pos n) : instrOfEvent .rxReady s = .evRxReadyData := by
  simp [instrOfEvent, hst, (Xfer.isWrite_iff _).mpr hx]

/-- A received buffer is a row EV_RX_READY in every other state (R112). -/
theorem instrOfEvent_rxReady_other {s : State}
    (h : ¬ (s.ctx.st = .dispatched ∧ ∃ pos n, s.ctx.xfer = .wr pos n)) :
    instrOfEvent .rxReady s = .evRxReady := by
  rw [← Xfer.isWrite_iff] at h
  exact if_neg (by simpa using h)

/-! ### The step the worker takes (R301) -/

/-- The head event is taken when the worker picks it or no internal step is enabled (R301 b). -/
theorem workerStep_event {s : State} {pick : WorkerPick} {e : Event} {q : List Event} (hq : s.evq = e :: q)
    (h : pick = .event ∨ internalStep s = none) :
    workerStep pick s = some (instrOfEvent e s, { s with evq := q }) := by
  cases hi : internalStep s with
  | none => exact workerStep_headEvent pick hi hq
  | some i =>
    obtain rfl : pick = .event := h.resolve_right (by simp [hi])
    simp only [workerStep, takeEvent, hi, hq]

/-- The enabled internal step is taken when no event waits or the worker picks it (R301 a). -/
theorem workerStep_internal {s : State} {pick : WorkerPick} {i : Instr} (hi : internalStep s = some i)
    (h : s.evq = [] ∨ pick = .internal) : workerStep pick s = some (i, s) := by
  cases hq : s.evq with
  | nil => simp only [workerStep, takeEvent, hi, hq]
  | cons e q =>
    obtain rfl : pick = .internal := h.resolve_left (by simp [hq])
    simp only [workerStep, takeEvent, hi, hq]

/-- A device→host data phase enables DataStepTx (R181). -/
theorem internalStep_dataStepTx {s : State} (hst : s.ctx.st = .dispatched) (hw : s.ctx.wedged = false)
    (hx : (∃ bytes pos n, s.ctx.xfer = .resp bytes pos n) ∨ ∃ pos n, s.ctx.xfer = .rd pos n) :
    internalStep s = some .dataStepTx := by
  rw [internalStep, if_pos ⟨hst, hw⟩]
  rcases hx with ⟨bytes, pos, n, hx⟩ | ⟨pos, n, hx⟩ <;> rw [hx]

/-- A command without a data phase left enables DispatchDone (R185). -/
theorem internalStep_dispatchDone {s : State} (hst : s.ctx.st = .dispatched) (hw : s.ctx.wedged = false)
    (hx : s.ctx.xfer = .none) : internalStep s = some .dispatchDone := by
  rw [internalStep, if_pos ⟨hst, hw⟩, hx]

/-! ### The scheduled turns -/

/-- Settles O7: the worker takes the head event, as nothing else is enabled or by its pick, and each event has the
row that is listed for it. -/
theorem workerTurnConsumesTheHeadEvent : Obligations.WorkerTurnConsumesTheHeadEvent := by
  intro s pick rest e q i hcfg hs hq hen hrow
  have hfree : pick = .event ∨ internalStep (s.setSchedule rest) = none := by
    rw [internalStep_eq_none_iff, Xfer.isWrite_iff]
    rcases hen with hst | hw | hx | hpick
    · exact .inr (.inl hst)
    · exact .inr (.inr (.inr hw))
    · exact .inr (.inr (.inl hx))
    · exact .inl hpick
  have hinstr : instrOfEvent e (s.setSchedule rest) = i := by
    rcases hrow with ⟨rfl, rfl⟩ | ⟨rfl, rfl⟩ | ⟨rfl, rfl⟩ | ⟨rfl, rfl⟩ | ⟨rfl, rfl⟩ | ⟨r, rfl, rfl⟩ |
      ⟨l, p, rfl, rfl⟩ | ⟨rfl, rfl, hst, hx⟩ | ⟨rfl, rfl, hno⟩
    iterate 7 · rfl
    · exact instrOfEvent_rxReady_payload hst hx
    · exact instrOfEvent_rxReady_other hno
  rw [step_worker hcfg hs, workerStep_event (s := s.setSchedule rest) hq hfree, hinstr]
  rfl

/-- Settles O8: the data phase says which internal step is enabled, and the worker takes it. -/
theorem workerTurnRunsTheInternalStep : Obligations.WorkerTurnRunsTheInternalStep := by
  intro s pick rest hcfg hs hfree hst hw
  have hrun (i : Instr) (hi : internalStep (s.setSchedule rest) = some i) :
      step s = exec i (s.setSchedule rest) := by
    rw [step_worker hcfg hs, workerStep_internal hi hfree]
    rfl
  exact ⟨fun hx => hrun _ (internalStep_dataStepTx hst hw hx),
    fun hx => hrun _ (internalStep_dispatchDone hst hw hx)⟩

/-- Settles O13: the sources other than the pipe engine may post each of the six kinds of event. -/
theorem postedEventsJoinTheEndOfTheQueue : Obligations.PostedEventsJoinTheEndOfTheQueue := by
  intro s e rest hcfg hs he
  have hpost : e.postable = true := by
    rcases he with rfl | rfl | rfl | rfl | ⟨r, rfl⟩ | ⟨l, p, rfl⟩ <;> rfl
  rw [step_post hcfg hs, postEvent, if_pos hpost]
  rfl

end Sys2Proof.Machine
end

section
/-! PROOFS. Scope: the bus events with the drained notification and the media change (R302 to R309), and the
control requests (R330 to R334), each as one update of the state with what it adds to the trace. -/

namespace Sys2Proof.Machine

/-! ### The parts the rules share, as updates -/

/-- The flush of the reset rules (R135). -/
theorem flushPipes_eq (s : State) :
    flushPipes s = { s with rxq := [], txq := [], trace := s.trace ++ [.pipeReset .rx, .pipeReset .tx] } := by
  simp [flushPipes, pipeReset, State.emit]

/-- The cancellation, with what it adds to the trace (R184). -/
theorem cancelCommand_update (s : State) :
    cancelCommand s =
      { s with ctx := cancelledCtx s.ctx
               trace := s.trace ++ if s.ctx.busy = true then [.lpmAllow true] else [] } := by
  rw [cancelCommand_eq, trace_ite]
  rfl

/-- Both stalls are due in a phase error only (R302, R306). -/
theorem stallBoth_ite (s : State) :
    (if s.ctx.phaseError then stallBoth s else s) =
      { s with haltRx := s.haltRx || s.ctx.phaseError
               haltTx := s.haltTx || s.ctx.phaseError
               trace := s.trace ++ if s.ctx.phaseError = true then [.stall .rx, .stall .tx] else [] } := by
  cases hpe : s.ctx.phaseError <;> simp [stallBoth_eq]

/-- The halt is released outside a phase error only (R331). -/
theorem unstall_ite (ep : Endpoint) (s : State) :
    (if s.ctx.phaseError then s else unstall ep s) =
      { s with haltRx := if ep = .rx ∧ s.ctx.phaseError = false then false else s.haltRx
               haltTx := if ep = .tx ∧ s.ctx.phaseError = false then false else s.haltTx
               trace := s.trace ++ if s.ctx.phaseError = true then [] else [.unstall ep] } := by
  cases hpe : s.ctx.phaseError
  · cases ep <;> rfl
  · simp

/-- An action that is due on a condition changes the trace alone. -/
theorem emit_ite (p : Prop) [Decidable p] (a : Action) (s : State) :
    (if p then s.emit a else s) = { s with trace := s.trace ++ if p then [a] else [] } := by
  by_cases hp : p <;> simp [hp, State.emit]

/-! ### Bus events and media (R302 to R309) -/

/-- Settles O38: outside `STATUS`, and when stuck, the notification is stale; else both stalls are due in a phase
error. -/
theorem txDrainedClosesTheCycle : Obligations.TxDrainedClosesTheCycle := by
  intro s
  show execEvTxDrained s = _
  by_cases hen : s.ctx.st = .status ∧ s.ctx.wedged = false
  · rw [execEvTxDrained, if_pos hen, if_pos hen, stallBoth_ite]
    cases hpe : s.ctx.phaseError <;> simp [State.setSt, hpe]
  · rw [execEvTxDrained, if_neg hen, if_neg hen]

/-- Settles O39: the flush, the units started, the cancellation and the stalls, one update each. -/
theorem configurationFlushesAndRearms : Obligations.ConfigurationFlushesAndRearms := by
  intro s
  show execEvConfig s = _
  rw [execEvConfig]
  dsimp only
  rw [stallBoth_ite, cancelCommand_update, startAllUnits, flushPipes_eq]
  rfl

/-- Settles O40: EV_DISCONNECT has the effect of EV_BUS_RESET, a flush and a cancellation. -/
theorem busResetAndDisconnectFlushToInactive : Obligations.BusResetAndDisconnectFlushToInactive := by
  intro i s hi
  have hreset : exec i s = .next (busReset s) := by rcases hi with rfl | rfl <;> rfl
  rw [hreset, busReset, cancelCommand_update, flushPipes_eq]
  rfl

/-- Settles O41: the event is consumed around the instruction, which does nothing (R305). -/
theorem suspendChangesNothing : Obligations.SuspendChangesNothing := fun _ => rfl

/-- Settles O42: a LUN that exists passes the test of R309, and its record is the one that changes. -/
theorem mediaEventWritesPresenceAndSense : Obligations.MediaEventWritesPresenceAndSense := by
  intro l present s u hu
  have hl : l < s.luns.length := (List.getElem?_eq_some_iff.mp hu).1
  show execEvMedia l present s = _
  rw [execEvMedia, if_pos hl, modifyLun_of_some s l _ u hu]

/-! ### Control requests (R330 to R334) -/

/-- Settles O43: the halt, the sequence reset and the acknowledgement, one update each. -/
theorem clearFeatureReleasesTheHaltOutsideAPhaseError :
    Obligations.ClearFeatureReleasesTheHaltOutsideAPhaseError := by
  intro ep s
  show execClearFeatureEndpointHalt ep s = _
  simp only [execClearFeatureEndpointHalt, unstall_ite, emit_ite]
  rfl

/-- Settles O44: with at most 16 LUN records the number less one fits the byte. -/
theorem getMaxLunAnswersTheNumberOfLunsLessOne : Obligations.GetMaxLunAnswersTheNumberOfLunsLessOne := by
  intro s _ hmax
  have hfits : s.luns.length - 1 < 2 ^ 8 := by omega
  exact ⟨BitVec.ofNat 8 (s.luns.length - 1), (BitVec.toNat_ofNat _ _).trans (Nat.mod_eq_of_lt hfits), rfl⟩

/-- Settles O45: acknowledged alone in `INACTIVE`, after the flush and the cancellation elsewhere. -/
theorem botResetFlushesAndKeepsHaltsAndUnits : Obligations.BotResetFlushesAndKeepsHaltsAndUnits := by
  intro s
  show execBotReset s = _
  by_cases hst : s.ctx.st = .inactive
  · rw [execBotReset, if_pos hst, if_pos hst]
    rfl
  · simp only [execBotReset, if_neg hst, cancelCommand_update, flushPipes_eq]
    rfl

/-- Settles O46: EV_CTRL runs the row of its request, and each of the three rows answers a next state. -/
theorem forwardedRequestsHaveTheEffectOfTheirRow : Obligations.ForwardedRequestsHaveTheEffectOfTheirRow := by
  intro s
  have hbot := botResetFlushesAndKeepsHaltsAndUnits s
  exact ⟨fun ep => ⟨_, rfl, rfl⟩, ⟨_, rfl, rfl⟩, ⟨_, hbot, hbot⟩⟩

end Sys2Proof.Machine
end

section
/-! PROOFS. Scope: the moves of the transport state register (R22, R300, R307). -/

namespace Sys2Proof.Machine

theorem CommandFrame.st {h : CbwHeader} {s t : State} (hf : CommandFrame h s t) : t.ctx.st = s.ctx.st := by
  rw [hf.ctx]
  rfl

theorem DataStepOutcome.st {s t : State} (ho : DataStepOutcome s t) : t.ctx.st = s.ctx.st := by
  cases ho <;> rfl

/-- A received buffer moves the state only from `CBW_WAIT`: a command accepted, or a phase error (R151 to R154). -/
theorem RxOutcome.st {s t : State} (ho : RxOutcome s t) :
    t.ctx.st = s.ctx.st ∨
      (s.ctx.st = .cbwWait ∧ (t.ctx.st = .dispatched ∨ (t.ctx.st = .status ∧ t.ctx.phaseError = true))) := by
  cases ho with
  | phaseError b csw env hst => exact .inr ⟨hst, .inr ⟨rfl, rfl⟩⟩
  | command b i env t hst _ _ _ hfmt he =>
    obtain ⟨h, -, hf⟩ := command_frame_of_format hfmt he
    exact .inr ⟨hst, .inl hf.st⟩
  | _ => exact .inl rfl

/-- In `INACTIVE` BOT_RESET moves nothing, itself or forwarded (R334). -/
theorem exec_botReset_inactive_st {i : Instr} {s t : State} (hi : i = .botReset ∨ i = .evCtrl .botReset)
    (he : exec i s = .next t) (hst : s.ctx.st = .inactive) : t.ctx.st = s.ctx.st := by
  have hbot : exec i s = exec .botReset s := by rcases hi with rfl | rfl <;> rfl
  rw [hbot, botResetFlushesAndKeepsHaltsAndUnits s, if_pos hst] at he
  injection he with he
  exact he ▸ rfl

/-- Settles O55: by everything an instruction can do; what is left after the rules that keep the state are the
moves of the table. -/
theorem transportStateMovesOnlyAlongTheTable : Obligations.TransportStateMovesOnlyAlongTheTable := by
  intro i s t he hne
  cases exec_effect he with
  | command h _ hf _ => exact absurd hf.st hne
  | received hi ho =>
    obtain ⟨hst, hto⟩ := ho.st.resolve_left hne
    exact .inr (.inr (.inr (.inl ⟨evRxReady_of_cbwWait hi hst, hst, hto⟩)))
  | dataStep ho => exact absurd ho.st hne
  | cswQueued haltRx haltTx csw trace env hst => exact .inr (.inr (.inr (.inr (.inl ⟨rfl, hst, rfl⟩))))
  | haltCleared ep trace _ _ => exact absurd (congrArg Ctx.st (setHalt_ctx s ep false)) hne
  | configured trace => exact .inl ⟨rfl, rfl⟩
  | busReset trace hi => exact .inr (.inl ⟨hi, rfl⟩)
  | botReset trace hi =>
    exact .inr (.inr (.inl ⟨hi, fun hst => hne (exec_botReset_inactive_st hi he hst), rfl⟩))
  | drained trace hst _ => exact .inr (.inr (.inr (.inr (.inr ⟨rfl, hst, rfl⟩))))
  | _ => exact absurd rfl hne

end Sys2Proof.Machine
end
